-- ==== Sys2Proof/Word.lean ====
section
/-! DEFINITION. The two bit-vector types of the block: a byte (8 bits) and a host word (32 bits), spec/00_scope.md rule R18. -/

namespace Sys2Proof

/-- A byte, 8 bits, unsigned (R18). -/
abbrev Byte := BitVec 8

/-- A host word, 32 bits, unsigned; bit 0 is the least significant bit (R18). -/
abbrev Word := BitVec 32

end Sys2Proof
end

