-- ==== Sys2Proof/Config.lean ====
section
/-! DEFINITION. What the implementation fixes (the named parameters of spec/00_scope.md rules R9 to R17) and the free
values: the timestamp oracle, the results of transport write calls, and buffer cells that hold no value. -/

namespace Sys2Proof

/-- How the outbound packet stream is cut into transport write calls (R15). -/
inductive WriteGrouping where
  | perBatch
  | perFlush
  deriving DecidableEq, Repr

/-- The parameters a model takes as arguments (R11, R13, R14, R15). Every shared operation takes them, so both
behaviours of R106 and R116/R117 are modelled; the meanings of `exec` use `Machine.hardware`. -/
structure Params where
  /-- `OUT_OPENER_IN_BUFFER` (R14): is the 0xF0 opener appended to the outbound buffer and sent? -/
  openerInBuffer : Bool
  /-- `WRITE_GROUPING` (R15). -/
  writeGrouping : WriteGrouping
  /-- `OUT_SYSEX_MAX` (R11): the length at which the outbound buffer is force-flushed. -/
  outSysexMax : Nat
  /-- `MAX_CHUNK_BYTES` (R13): the most bytes one transport read delivers. -/
  maxChunkBytes : Nat
  deriving DecidableEq, Repr

/-- R11: another value of `OUT_SYSEX_MAX` must stay a positive multiple of 3. -/
def Params.wf (p : Params) : Bool :=
  0 < p.outSysexMax && p.outSysexMax % 3 == 0

/-- `PKT_BYTES` (R9). -/
def Config.pktBytes : Nat := 4

/-- `HOST_WORD_BYTES` (R10). -/
def Config.hostWordBytes : Nat := 4

/-- `IN_GROUP` (R12): the inbound buffer is flushed into one host word at this length. -/
def Config.inGroup : Nat := 4

/-- A timestamp. Its width, unit and law are open (R16), so any natural number may stand for one. -/
abbrev Timestamp := Nat

/-- The result of one transport write call (spec/42_sequencing.md rule R193). -/
inductive WriteResult where
  | written (n : Nat)
  | timeout
  | transferFailed
  | notConnected
  deriving DecidableEq, Repr, Inhabited

/-- A call reports at most the bytes it was given (spec/93_implementation_defined.md I4: any value from 0 to the
call's length). -/
def WriteResult.within (len : Nat) : WriteResult → WriteResult
  | .written n => .written (min n len)
  | r => r

/-- The timestamp oracle `TS` (R16, R156): the value of the n-th draw. Free value (notes/assumptions/4.md). -/
opaque Config.timestamp : Nat → Timestamp

/-- What the transport reports for the n-th write call (R118, R193, I4). Free value (notes/assumptions/5.md). -/
opaque Config.writeResult : Nat → WriteResult

/-- The n-th view of a buffer cell beyond the buffer's length (R22, I7: any value). Free value
(notes/assumptions/6.md). -/
opaque Config.deadCell : Nat → Nat → Byte

end Sys2Proof
end

