-- ==== Sys2Proof/Syntax.lean ====
section
/-! DEFINITION. The syntax: mode flags, packets, read results, the input tokens (spec/30_encoding.md rules R70 to R79)
and `Instr`, the ONE inductive of the block's operations, one constructor per operation of spec/opcode_table.json. -/

namespace Sys2Proof

/-- The two values of a direction's mode flag (spec/10_state.md rules R21 and R28). -/
inductive Mode where
  | idle
  | accumulating
  deriving DecidableEq, Repr

/-- The input formats of R70. -/
inductive Format where
  | inPkt
  | hostWord
  | outByte
  | ctrl
  | internal
  deriving DecidableEq, Repr

/-- A 4-byte USB-MIDI Event Packet `[p0 p1 p2 p3]` in transport order (R52, R71, R74). -/
structure Packet where
  p0 : Byte
  p1 : Byte
  p2 : Byte
  p3 : Byte
  deriving DecidableEq, Repr

/-- The status of one transport read (spec/42_sequencing.md rule R194). -/
inductive ReadStatus where
  | success
  | timeout
  | transferFailed
  | notConnected
  deriving DecidableEq, Repr

/-- The result `(bytes, n, status)` of one transport read (R150, R194); `n` is the number of bytes. -/
structure ReadResult where
  status : ReadStatus
  bytes : List Byte
  deriving DecidableEq, Repr

/-- A read that timed out and delivered nothing (the stimulus `chunk timeout`, R85). -/
def ReadResult.timedOut : ReadResult := ⟨.timeout, []⟩

/-- The `CTRL` events (R79): chosen by the interface event that occurs, not by bits. -/
inductive Event where
  | batch (ws : List Word)
  | batchEnd
  | chunk (r : ReadResult)
  | iter (ws : List Word) (r : ReadResult)
  | shutdown
  | reset
  deriving DecidableEq, Repr

/-- One input token at the current position of the block's input streams (R36, R70): a packet of a chunk, a word of a
batch, a byte of a SysEx-carrying word, or an event of the loop. -/
inductive Token where
  | packet (p : Packet)
  | word (w : Word)
  | byte (b : Byte)
  | event (e : Event)
  deriving DecidableEq, Repr

/-- The operations of spec/opcode_table.json by name. The table's 47 rows carry these 20 names; rows that share one
are the mask pieces of one operation (notes/assumptions/11.md). -/
inductive Op where
  | inSysexCont | inSysexEnd1 | inSysexEnd2 | inSysexEnd3 | inEvent
  | outSysexWord | outChannel
  | byteOpen | byteSkip | byteData | byteTerm
  | batchEnd | chunk | iterate | shutdown | reset
  | flushForced | flushTerminal | inFlush | outBatch
  deriving DecidableEq, Repr

/-- The operations of the block, each with its operands. -/
inductive Instr where
  /-- IN_SYSEX_CONT (R158): a packet with control byte 0x04. -/
  | inSysexCont (b1 b2 b3 : Byte)
  /-- IN_SYSEX_END1 (R161): control byte 0x05. -/
  | inSysexEnd1 (b1 b2 b3 : Byte)
  /-- IN_SYSEX_END2 (R162): control byte 0x06. -/
  | inSysexEnd2 (b1 b2 b3 : Byte)
  /-- IN_SYSEX_END3 (R163): control byte 0x07. -/
  | inSysexEnd3 (b1 b2 b3 : Byte)
  /-- IN_EVENT (R164): any other control byte `cb`. -/
  | inEvent (cb b1 b2 b3 : Byte)
  /-- OUT_SYSEX_WORD (R103): a host word whose four bytes are examined one by one. -/
  | outSysexWord (w : Word)
  /-- OUT_CHANNEL (R102): a host word framed as one packet. -/
  | outChannel (w : Word)
  /-- BYTE_OPEN (R106): 0xF0 examined while `Idle`. -/
  | byteOpen
  /-- BYTE_SKIP (R105): any other byte examined while `Idle`. -/
  | byteSkip (b : Byte)
  /-- BYTE_DATA (R107): a non-terminator examined while `Accumulating`. -/
  | byteData (b : Byte)
  /-- BYTE_TERM (R108): a terminator examined while `Accumulating`. -/
  | byteTerm (b : Byte)
  /-- BATCH_END (R116, R117). -/
  | batchEnd
  /-- CHUNK (R150): one transport read result. -/
  | chunk (r : ReadResult)
  /-- ITERATE (R191): one polling iteration, with the batch the poll returns and the result the read returns. -/
  | iterate (ws : List Word) (r : ReadResult)
  /-- SHUTDOWN (R197): the external shutdown signal. -/
  | shutdown
  /-- RESET (R240): the start of the polling loop. -/
  | reset
  /-- FLUSH_FORCED (R112), an internal procedure. -/
  | flushForced
  /-- FLUSH_TERMINAL (R110), an internal procedure. -/
  | flushTerminal
  /-- IN_FLUSH (R157), an internal procedure. -/
  | inFlush
  /-- OUT_BATCH (R100): one host read batch. -/
  | outBatch (ws : List Word)
  deriving DecidableEq, Repr

namespace Instr

/-- The operation an instruction is. -/
def op : Instr → Op
  | .inSysexCont _ _ _ => .inSysexCont
  | .inSysexEnd1 _ _ _ => .inSysexEnd1
  | .inSysexEnd2 _ _ _ => .inSysexEnd2
  | .inSysexEnd3 _ _ _ => .inSysexEnd3
  | .inEvent _ _ _ _ => .inEvent
  | .outSysexWord _ => .outSysexWord
  | .outChannel _ => .outChannel
  | .byteOpen => .byteOpen
  | .byteSkip _ => .byteSkip
  | .byteData _ => .byteData
  | .byteTerm _ => .byteTerm
  | .batchEnd => .batchEnd
  | .chunk _ => .chunk
  | .iterate _ _ => .iterate
  | .shutdown => .shutdown
  | .reset => .reset
  | .flushForced => .flushForced
  | .flushTerminal => .flushTerminal
  | .inFlush => .inFlush
  | .outBatch _ => .outBatch

end Instr

/-- The format of an operation (the `format` column of spec/opcode_table.json, R70). -/
def Op.format : Op → Format
  | .inSysexCont | .inSysexEnd1 | .inSysexEnd2 | .inSysexEnd3 | .inEvent => .inPkt
  | .outSysexWord | .outChannel => .hostWord
  | .byteOpen | .byteSkip | .byteData | .byteTerm => .outByte
  | .batchEnd | .chunk | .iterate | .shutdown | .reset | .outBatch => .ctrl
  | .flushForced | .flushTerminal | .inFlush => .internal

/-- How many bytes a token of a format has: every length is fixed, and `CTRL` and `INTERNAL` have no bits (R70). -/
def Format.length : Format → Nat
  | .inPkt => Config.pktBytes
  | .hostWord => Config.hostWordBytes
  | .outByte => 1
  | .ctrl => 0
  | .internal => 0

end Sys2Proof
end

