-- ==== Sys2Proof/Machine/State.lean ====
section
/-! DEFINITION. The state of the block as plain data (spec/10_state.md rules R20 to R35), the reasons a step can stop,
and the state after reset (spec/70_reset_and_hazards.md rule R241). -/

namespace Sys2Proof.Machine

/-- The run state of the polling loop (R34). -/
inductive RunState where
  | running
  | stopped
  deriving DecidableEq, Repr

/-- The two effects the block has outside itself (R56). -/
inductive Effect where
  /-- One `TransportWrite` call: the bytes the block offered (R193) and what the transport reported, which the block
  does not consume (R118). -/
  | transportWrite (bytes : List Byte) (result : WriteResult)
  /-- One `EmitHost` (R156): a host word written to the virtual output port with its timestamp. -/
  | hostWrite (ts : Timestamp) (w : Word)
  deriving DecidableEq, Repr

/-- The state. The first seven fields are exactly the state of R20; the last five are the model's own (DESIGN CHOICE,
notes/assumptions/1.md, 4.md to 7.md): the inputs still to come, the effects so far, and the counters that draw the
free values. -/
structure State where
  /-- `out_mode` (R21). -/
  outMode : Mode
  /-- `out_buf` (R22). -/
  outBuf : List Byte
  /-- `out_q` (R25): packets in the order they were queued. -/
  outQ : List Packet
  /-- `in_mode` (R28). -/
  inMode : Mode
  /-- `in_buf` (R29). -/
  inBuf : List Byte
  /-- `run_state` (R34). -/
  runState : RunState
  /-- `shutdown_req` (R35), 1 bit. -/
  shutdownReq : Bool
  /-- The model's own: the input tokens still to come, in order; the position of R36 is the head of this list. -/
  input : List Token
  /-- The model's own: the effects so far, oldest first (R56, R61). -/
  trace : List Effect
  /-- The model's own: how many timestamps have been drawn (R16). -/
  tsDraws : Nat
  /-- The model's own: how many transport write calls have been made (R193). -/
  writeDraws : Nat
  /-- The model's own: how many times dead buffer cells have been viewed (R22, I7). -/
  cellDraws : Nat
  deriving DecidableEq, Repr

/-- The block raises no exception and has no trap (R210), so there is no fault: nothing raises one. -/
inductive Fault where
  deriving DecidableEq, Repr

/-- The model's verdicts on inputs outside the block's contract (R213). A refused input has no next state, so a run
stops at it; refusing is safe. -/
inductive Refusal where
  /-- Raised by `exec` for an operation that has no meaning yet; safe. No arm raises it. -/
  | notModelled (mnemonic : String)
  /-- Raised by ITERATE, and by `step` for any operation but RESET and SHUTDOWN, when `run_state = Stopped` (R198);
  safe. -/
  | afterStop
  /-- Raised by CHUNK on a `Success` read longer than `MAX_CHUNK_BYTES` (R153); safe. -/
  | chunkTooLong
  /-- Raised by CHUNK on a `Success` read whose length is not a multiple of 4 (R152); safe. -/
  | partialPacket
  deriving DecidableEq, Repr

/-- The outcome of an operation of the block. -/
abbrev Result := Host.Outcome State Fault Refusal

/-- The block right after reset (R241). The model's own fields start empty and at 0 (DESIGN CHOICE,
notes/assumptions/1.md and 4.md to 7.md). -/
def State.reset : State where
  outMode := .idle
  outBuf := []
  outQ := []
  inMode := .idle
  inBuf := []
  runState := .running
  shutdownReq := false
  input := []
  trace := []
  tsDraws := 0
  writeDraws := 0
  cellDraws := 0

end Sys2Proof.Machine
end

