-- ==== Sys2Proof/Machine/Flags.lean ====
section
/-! DEFINITION. The flags: every write of `out_mode`, `in_mode`, `run_state` and `shutdown_req`. The block has no other
flags and no condition codes (spec/10_state.md rule R38). -/

namespace Sys2Proof.Machine

/-- `out_mode <- Accumulating` (R106). -/
def openOutMode (s : State) : State :=
  { s with outMode := .accumulating }

/-- `out_mode <- Idle` (R108). -/
def closeOutMode (s : State) : State :=
  { s with outMode := .idle }

/-- `in_mode <- m` (R159); no rule reads it. -/
def writeInMode (m : Mode) (s : State) : State :=
  { s with inMode := m }

/-- `shutdown_req <- 1` (R197). -/
def raiseShutdown (s : State) : State :=
  { s with shutdownReq := true }

/-- `run_state <- Stopped` (R197). -/
def stopRun (s : State) : State :=
  { s with runState := .stopped }

end Sys2Proof.Machine
end

