-- ==== Sys2Proof/Machine/Operands.lean ====
section
/-! DEFINITION. The parameter values of this hardware, and operand assembly: byte lanes of a host word
(spec/20_memory.md rule R51), the packet layout of a byte stream (R52, R54), the channel CIN (R80), the output words
(R75), the packets of the two flushes (R110 to R112), and the byte and control-byte tests the classification uses
(R76 to R78, R109). -/

namespace Sys2Proof.Machine

/-- The parameter values of this hardware (R11, R13, R14, R15; DEDUCED, the spec's own decisions D2, D5 and D29,
notes/assumptions/9.md). -/
def hardware : Params where
  openerInBuffer := true
  writeGrouping := .perBatch
  outSysexMax := 48
  maxChunkBytes := 64

/-- Byte `k` of a host word is `w[8k+7:8k]` (R51; the input lanes are the spec's decision D1). -/
def lane (w : Word) (k : Nat) : Byte :=
  w.extractLsb' (8 * k) 8

/-- The four bytes of a host word in order: status, data1, data2, fourth slot (R51). -/
def lanes (w : Word) : List Byte :=
  [lane w 0, lane w 1, lane w 2, lane w 3]

/-- `zext_32(g0) | zext_32(g1) << 8 | zext_32(g2) << 16 | zext_32(g3) << 24` (R72, R75). -/
def packWord (g0 g1 g2 g3 : Byte) : Word :=
  g0.setWidth 32 ||| g1.setWidth 32 <<< 8 ||| g2.setWidth 32 <<< 16 ||| g3.setWidth 32 <<< 24

/-- The event word of IN_EVENT (R164): bits 31 to 24 are 0. -/
def eventWord (b1 b2 b3 : Byte) : Word :=
  b1.setWidth 32 ||| b2.setWidth 32 <<< 8 ||| b3.setWidth 32 <<< 16

/-- The group word of IN_FLUSH (R157): the buffered bytes in order, each missing byte 0. -/
def groupWord (buf : List Byte) : Word :=
  packWord (buf.getD 0 0) (buf.getD 1 0) (buf.getD 2 0) (buf.getD 3 0)

/-- The channel CIN `(e0 & 0xF0) >> 4` (R80, R102). -/
def channelCin (e0 : Byte) : Byte :=
  (e0 &&& 0xF0) >>> 4

/-- The packet of OUT_CHANNEL (R102): the fourth slot of the word is not read. -/
def channelPacket (w : Word) : Packet :=
  ⟨channelCin (lane w 0), lane w 0, lane w 1, lane w 2⟩

/-- The SysEx opener (spec/00_scope.md section 6). -/
def opener : Byte := 0xF0

/-- The outbound terminator test (R104, R109): bit 7 set and not 0xF0. -/
def isTerminator (b : Byte) : Bool :=
  b != opener && b.getLsbD 7

/-- The control bytes of the SysEx packets, 0x04 to 0x07, compared whole (R76, R83). -/
def isSysexControl (cb : Byte) : Bool :=
  cb == 0x04 || cb == 0x05 || cb == 0x06 || cb == 0x07

/-- The bytes of a packet in transport order (R52). -/
def bytesOfPacket (p : Packet) : List Byte :=
  [p.p0, p.p1, p.p2, p.p3]

/-- The queued packets laid end to end (R52). -/
def packetBytes : List Packet → List Byte
  | [] => []
  | p :: ps => bytesOfPacket p ++ packetBytes ps

/-- Packet `i` of a chunk is its bytes `4i` to `4i+3` (R54). A tail of 1 to 3 bytes makes no packet: CHUNK has refused
such a chunk before it comes here (R152). -/
def packetsOf : List Byte → List Packet
  | b0 :: b1 :: b2 :: b3 :: rest => ⟨b0, b1, b2, b3⟩ :: packetsOf rest
  | _ => []

/-- The number of packets of a terminal flush of length `L`: `ceil(L / 3)` (R110). -/
def terminalCount (len : Nat) : Nat :=
  (len + 2) / 3

/-- Packet `g` of a terminal flush (R110, R111): the group's `r` bytes zero padded, with CIN 0x04, or `0x04 + r` for
the last group. -/
def terminalPacket (buf : List Byte) (g : Nat) : Packet :=
  ⟨if g + 1 < terminalCount buf.length then 0x04 else 0x04 + BitVec.ofNat 8 (min 3 (buf.length - 3 * g)),
    buf.getD (3 * g) 0, buf.getD (3 * g + 1) 0, buf.getD (3 * g + 2) 0⟩

/-- The packets of a terminal flush, in order (R110). -/
def terminalPackets (buf : List Byte) : List Packet :=
  (List.range (terminalCount buf.length)).map (terminalPacket buf)

/-- Cell `i` of a buffer; a cell beyond the length holds any value (R22, I7): the `n`-th view of dead cells
(notes/assumptions/6.md). -/
def cell (n : Nat) (buf : List Byte) (i : Nat) : Byte :=
  buf.getD i (Config.deadCell n i)

/-- Packet `g` of a forced flush (R112): a full triple with CIN 0x04. -/
def forcedPacket (n : Nat) (buf : List Byte) (g : Nat) : Packet :=
  ⟨0x04, cell n buf (3 * g), cell n buf (3 * g + 1), cell n buf (3 * g + 2)⟩

/-- The packets of a forced flush (R112): `OUT_SYSEX_MAX / 3` of them, 16 on this hardware. -/
def forcedPackets (p : Params) (n : Nat) (buf : List Byte) : List Packet :=
  (List.range (p.outSysexMax / 3)).map (forcedPacket n buf)

/-- The notation `msg S D1 D2` (R86): a host word whose fourth slot is 0. -/
def msgWord (s d1 d2 : Byte) : Word :=
  packWord s d1 d2 0

/-- The notation `sysex B0 .. Bn-1` (R86): `ceil(n/4)` host words, the last filled with zero bytes. -/
def sysexWords : List Byte → List Word
  | [] => []
  | [a] => [packWord a 0 0 0]
  | [a, b] => [packWord a b 0 0]
  | [a, b, c] => [packWord a b c 0]
  | a :: b :: c :: d :: rest => packWord a b c d :: sysexWords rest

end Sys2Proof.Machine
end

