-- ==== Sys2Proof/Machine/Ops.lean ====
section
/-! DEFINITION. The shared operations: the procedures of spec/40_outbound_framer.md and spec/41_inbound_decoder.md,
each a function on the state with the parameters of R11 to R15 as its argument. The block has no trap, so there is no
exception entry and no return from one (spec/60_exceptions.md rules R210, R216 and R217). -/

namespace Sys2Proof.Machine

/-! ## Outbound: the packet queue and the transport write -/

/-- QueuePkt for several packets in order (R115). -/
def queuePackets (ps : List Packet) (s : State) : State :=
  { s with outQ := s.outQ ++ ps }

/-- QueuePkt (R115). -/
def queuePacket (pkt : Packet) (s : State) : State :=
  queuePackets [pkt] s

/-- One `TransportWrite` call (R193) whose result is `r`. Whatever `r` is, the block keeps nothing of it (R118). -/
def transportWrite (bytes : List Byte) (r : WriteResult) (s : State) : State :=
  { s with trace := s.trace ++ [.transportWrite bytes (r.within bytes.length)], writeDraws := s.writeDraws + 1 }

/-- WriteQueue (R116): one call with all queued packets, or none if nothing is queued. -/
def writeQueue (s : State) : State :=
  if s.outQ = [] then s
  else { transportWrite (packetBytes s.outQ) (Config.writeResult s.writeDraws) s with outQ := [] }

/-- The last step of a flush that queued a packet: WriteQueue under `PER_FLUSH` (R117), nothing under `PER_BATCH`. -/
def endFlush (p : Params) (s : State) : State :=
  match p.writeGrouping with
  | .perBatch => s
  | .perFlush => writeQueue s

/-! ## Outbound: the SysEx buffer -/

/-- `out_buf <- out_buf ++ [b]` (R107, R108). -/
def appendOut (b : Byte) (s : State) : State :=
  { s with outBuf := s.outBuf ++ [b] }

/-- `out_buf <- []` (R110, R112). -/
def clearOut (s : State) : State :=
  { s with outBuf := [] }

/-- Count one view of dead cells when a forced flush reads beyond the buffer's length (notes/assumptions/6.md). -/
def viewDeadCells (p : Params) (s : State) : State :=
  if s.outBuf.length < p.outSysexMax then { s with cellDraws := s.cellDraws + 1 } else s

/-- FLUSH_FORCED (R112, R113): full triples with CIN 0x04; the mode is untouched. -/
def flushForced (p : Params) (s : State) : State :=
  if s.outBuf = [] then s
  else endFlush p (clearOut (viewDeadCells p (queuePackets (forcedPackets p s.cellDraws s.outBuf) s)))

/-- FLUSH_TERMINAL (R110, R111, R113). -/
def flushTerminal (p : Params) (s : State) : State :=
  if s.outBuf = [] then s
  else endFlush p (clearOut (queuePackets (terminalPackets s.outBuf) s))

/-! ## Outbound: bytes, words and batches -/

/-- BYTE_SKIP (R105): the byte is discarded. -/
def byteSkip (s : State) : State :=
  s

/-- BYTE_DATA (R107): append, then the forced flush when the length reaches `OUT_SYSEX_MAX`. -/
def byteData (p : Params) (b : Byte) (s : State) : State :=
  if (appendOut b s).outBuf.length = p.outSysexMax then flushForced p (appendOut b s) else appendOut b s

/-- BYTE_OPEN (R106): enter `Accumulating`; the opener goes on as a BYTE_DATA where `OUT_OPENER_IN_BUFFER`. -/
def byteOpen (p : Params) (s : State) : State :=
  if p.openerInBuffer then byteData p opener (openOutMode s) else openOutMode s

/-- BYTE_TERM (R108): append, terminal flush, `Idle`. -/
def byteTerm (p : Params) (b : Byte) (s : State) : State :=
  closeOutMode (flushTerminal p (appendOut b s))

/-- OutByte (R104): dispatch of one byte by the mode at this moment. -/
def outByte (p : Params) (b : Byte) (s : State) : State :=
  match s.outMode with
  | .idle => if b = opener then byteOpen p s else byteSkip s
  | .accumulating => if isTerminator b then byteTerm p b s else byteData p b s

/-- Examine bytes one after another, the mode re-read for each (R103, R104). -/
def outBytes (p : Params) : List Byte → State → State
  | [], s => s
  | b :: bs, s => outBytes p bs (outByte p b s)

/-- OUT_SYSEX_WORD (R103): all four bytes are examined. -/
def outSysexWord (p : Params) (w : Word) (s : State) : State :=
  outBytes p (lanes w) s

/-- OUT_CHANNEL (R102). -/
def outChannel (w : Word) (s : State) : State :=
  queuePacket (channelPacket w) s

/-- OutEvent (R101): the mode is read once, before any byte of the word. -/
def outEvent (p : Params) (w : Word) (s : State) : State :=
  if s.outMode = .idle ∧ lane w 0 ≠ opener then outChannel w s else outSysexWord p w s

/-- The words of a batch, strictly in order (R100). -/
def outEvents (p : Params) : List Word → State → State
  | [], s => s
  | w :: ws, s => outEvents p ws (outEvent p w s)

/-- BatchEnd (R116, and R117 for the other grouping): WriteQueue. -/
def batchEnd (s : State) : State :=
  writeQueue s

/-- OUT_BATCH (R100). -/
def outBatch (p : Params) (ws : List Word) (s : State) : State :=
  batchEnd (outEvents p ws s)

/-! ## Inbound -/

/-- EmitHost (R156): one port write with its own timestamp; no result is consumed. -/
def emitHost (w : Word) (s : State) : State :=
  { s with trace := s.trace ++ [.hostWrite (Config.timestamp s.tsDraws) w], tsDraws := s.tsDraws + 1 }

/-- InAppend (R155). -/
def inAppend (b : Byte) (s : State) : State :=
  { s with inBuf := s.inBuf ++ [b] }

/-- `in_buf <- []` (R157). -/
def clearIn (s : State) : State :=
  { s with inBuf := [] }

/-- IN_FLUSH (R157): pack the buffer into one host word and empty it; nothing for an empty buffer. -/
def inFlush (s : State) : State :=
  if s.inBuf = [] then s else clearIn (emitHost (groupWord s.inBuf) s)

/-- InAppendCheck (R155): append, then flush a full group of 4. -/
def inAppendCheck (b : Byte) (s : State) : State :=
  if (inAppend b s).inBuf.length = Config.inGroup then inFlush (inAppend b s) else inAppend b s

/-- IN_SYSEX_CONT (R158, R159). -/
def inSysexCont (b1 b2 b3 : Byte) (s : State) : State :=
  writeInMode .accumulating (inAppendCheck b3 (inAppendCheck b2 (inAppendCheck b1 s)))

/-- InSysexEnd (R160), shared by the three terminal packets: all three bytes are appended whatever the CIN says. -/
def inSysexEnd (b1 b2 b3 : Byte) (s : State) : State :=
  writeInMode .idle (inFlush (inAppend b3 (inAppendCheck b2 (inAppendCheck b1 s))))

/-- IN_EVENT (R164): the SysEx buffer and `in_mode` are not touched. -/
def inEvent (b1 b2 b3 : Byte) (s : State) : State :=
  emitHost (eventWord b1 b2 b3) s

/-- InPacket (R154): dispatch by the whole control byte. -/
def inPacket (pkt : Packet) (s : State) : State :=
  if pkt.p0 = 0x04 then inSysexCont pkt.p1 pkt.p2 pkt.p3 s
  else if pkt.p0 = 0x05 then inSysexEnd pkt.p1 pkt.p2 pkt.p3 s
  else if pkt.p0 = 0x06 then inSysexEnd pkt.p1 pkt.p2 pkt.p3 s
  else if pkt.p0 = 0x07 then inSysexEnd pkt.p1 pkt.p2 pkt.p3 s
  else inEvent pkt.p1 pkt.p2 pkt.p3 s

/-- The packets of a chunk, strictly in order (R150). -/
def inPackets : List Packet → State → State
  | [], s => s
  | pkt :: ps, s => inPackets ps (inPacket pkt s)

/-- CHUNK (R150 to R153): status first, then length, then alignment (R215). -/
def chunk (p : Params) (r : ReadResult) (s : State) : Result :=
  if r.status ≠ .success then .next s
  else if p.maxChunkBytes < r.bytes.length then .refused .chunkTooLong
  else if r.bytes.length % Config.pktBytes ≠ 0 then .refused .partialPacket
  else .next (inPackets (packetsOf r.bytes) s)

/-! ## The polling loop -/

/-- ITERATE (R191): the stop tests, then the outbound batch with its write calls, then the inbound chunk. -/
def iterate (p : Params) (ws : List Word) (r : ReadResult) (s : State) : Result :=
  match s.runState with
  | .stopped => .refused .afterStop
  | .running => if s.shutdownReq then .next (stopRun s) else chunk p r (outBatch p ws s)

/-- RESET (R240 to R243): the seven fields of R20 take the values of R241. The inputs still to come, the effects
already made and the draw counters are not the block's state and go on (notes/assumptions/8.md). -/
def restart (s : State) : State :=
  { State.reset with
    input := s.input, trace := s.trace, tsDraws := s.tsDraws, writeDraws := s.writeDraws, cellDraws := s.cellDraws }

end Sys2Proof.Machine
end

