-- ==== Sys2Proof/Machine/Control.lean ====
section
/-! DEFINITION. The meanings of the polling loop's operations (spec/42_sequencing.md, spec/70_reset_and_hazards.md). -/

namespace Sys2Proof.Machine

/-- ITERATE (R191). -/
def execIterate (ws : List Word) (r : ReadResult) (s : State) : Result :=
  iterate hardware ws r s

/-- SHUTDOWN (R197): the flag is set whenever the signal arrives. -/
def execShutdown (s : State) : Result :=
  .next (raiseShutdown s)

/-- RESET (R240, R241). -/
def execReset (s : State) : Result :=
  .next (restart s)

end Sys2Proof.Machine
end

