-- ==== Sys2Proof/Machine/Inbound.lean ====
section
/-! DEFINITION. The meanings of the inbound family (spec/41_inbound_decoder.md): the packets, the chunk and the group
flush. -/

namespace Sys2Proof.Machine

/-- IN_SYSEX_CONT (R158). -/
def execInSysexCont (b1 b2 b3 : Byte) (s : State) : Result :=
  .next (inSysexCont b1 b2 b3 s)

/-- IN_SYSEX_END1 (R161): the procedure of R160. -/
def execInSysexEnd1 (b1 b2 b3 : Byte) (s : State) : Result :=
  .next (inSysexEnd b1 b2 b3 s)

/-- IN_SYSEX_END2 (R162): the procedure of R160. -/
def execInSysexEnd2 (b1 b2 b3 : Byte) (s : State) : Result :=
  .next (inSysexEnd b1 b2 b3 s)

/-- IN_SYSEX_END3 (R163): the procedure of R160. -/
def execInSysexEnd3 (b1 b2 b3 : Byte) (s : State) : Result :=
  .next (inSysexEnd b1 b2 b3 s)

/-- IN_EVENT (R164): the control byte is not read beyond the classification. -/
def execInEvent (b1 b2 b3 : Byte) (s : State) : Result :=
  .next (inEvent b1 b2 b3 s)

/-- CHUNK (R150). -/
def execChunk (r : ReadResult) (s : State) : Result :=
  chunk hardware r s

/-- IN_FLUSH (R157). -/
def execInFlush (s : State) : Result :=
  .next (inFlush s)

end Sys2Proof.Machine
end

