-- ==== Sys2Proof/Machine/Outbound.lean ====
section
/-! DEFINITION. The meanings of the outbound family (spec/40_outbound_framer.md): words, bytes, flushes and batches. -/

namespace Sys2Proof.Machine

/-- OUT_CHANNEL (R102). -/
def execOutChannel (w : Word) (s : State) : Result :=
  .next (outChannel w s)

/-- OUT_SYSEX_WORD (R103). -/
def execOutSysexWord (w : Word) (s : State) : Result :=
  .next (outSysexWord hardware w s)

/-- BYTE_OPEN (R106). -/
def execByteOpen (s : State) : Result :=
  .next (byteOpen hardware s)

/-- BYTE_SKIP (R105). -/
def execByteSkip (s : State) : Result :=
  .next (byteSkip s)

/-- BYTE_DATA (R107). -/
def execByteData (b : Byte) (s : State) : Result :=
  .next (byteData hardware b s)

/-- BYTE_TERM (R108). -/
def execByteTerm (b : Byte) (s : State) : Result :=
  .next (byteTerm hardware b s)

/-- FLUSH_FORCED (R112). -/
def execFlushForced (s : State) : Result :=
  .next (flushForced hardware s)

/-- FLUSH_TERMINAL (R110). -/
def execFlushTerminal (s : State) : Result :=
  .next (flushTerminal hardware s)

/-- BATCH_END (R116). -/
def execBatchEnd (s : State) : Result :=
  .next (batchEnd s)

/-- OUT_BATCH (R100). -/
def execOutBatch (ws : List Word) (s : State) : Result :=
  .next (outBatch hardware ws s)

end Sys2Proof.Machine
end

