-- ==== Sys2Proof/Machine/Dispatch.lean ====
section
/-! DEFINITION. One arm per operation of the block. -/

namespace Sys2Proof.Machine

def exec (i : Instr) (s : State) : Host.Outcome State Fault Refusal :=
  match i with
  | .inSysexCont b1 b2 b3 => Sys2Proof.Machine.execInSysexCont b1 b2 b3 s
  | .inSysexEnd1 b1 b2 b3 => Sys2Proof.Machine.execInSysexEnd1 b1 b2 b3 s
  | .inSysexEnd2 b1 b2 b3 => Sys2Proof.Machine.execInSysexEnd2 b1 b2 b3 s
  | .inSysexEnd3 b1 b2 b3 => Sys2Proof.Machine.execInSysexEnd3 b1 b2 b3 s
  | .inEvent _ b1 b2 b3 => Sys2Proof.Machine.execInEvent b1 b2 b3 s
  | .outSysexWord w => Sys2Proof.Machine.execOutSysexWord w s
  | .outChannel w => Sys2Proof.Machine.execOutChannel w s
  | .byteOpen => Sys2Proof.Machine.execByteOpen s
  | .byteSkip _ => Sys2Proof.Machine.execByteSkip s
  | .byteData b => Sys2Proof.Machine.execByteData b s
  | .byteTerm b => Sys2Proof.Machine.execByteTerm b s
  | .batchEnd => Sys2Proof.Machine.execBatchEnd s
  | .chunk r => Sys2Proof.Machine.execChunk r s
  | .iterate ws r => Sys2Proof.Machine.execIterate ws r s
  | .shutdown => Sys2Proof.Machine.execShutdown s
  | .reset => Sys2Proof.Machine.execReset s
  | .flushForced => Sys2Proof.Machine.execFlushForced s
  | .flushTerminal => Sys2Proof.Machine.execFlushTerminal s
  | .inFlush => Sys2Proof.Machine.execInFlush s
  | .outBatch ws => Sys2Proof.Machine.execOutBatch ws s

end Sys2Proof.Machine
end

