-- ==== Sys2Proof/WellFormed.lean ====
section
/-! DEFINITION. Which instructions the classification can pick, and in which outbound mode (spec/30_encoding.md rules
R76 to R79). -/

namespace Sys2Proof

open Machine in
/-- `i.wfIn m`: some input token makes the classification of R76 to R79 pick exactly `i` while `out_mode = m`. The
internal procedures are picked by no token, and carry no operand that could be wrong. -/
def Instr.wfIn (m : Mode) : Instr → Bool
  | .inSysexCont _ _ _ | .inSysexEnd1 _ _ _ | .inSysexEnd2 _ _ _ | .inSysexEnd3 _ _ _ => true
  | .inEvent cb _ _ _ => !isSysexControl cb
  | .outSysexWord w => m == .accumulating || lane w 0 == opener
  | .outChannel w => m == .idle && lane w 0 != opener
  | .byteOpen => m == .idle
  | .byteSkip b => m == .idle && b != opener
  | .byteData b => m == .accumulating && !isTerminator b
  | .byteTerm b => m == .accumulating && isTerminator b
  | .batchEnd | .chunk _ | .iterate _ _ | .shutdown | .reset | .outBatch _ => true
  | .flushForced | .flushTerminal | .inFlush => true

/-- Well formed: selected in some mode. -/
def Instr.wf (i : Instr) : Bool :=
  i.wfIn .idle || i.wfIn .accumulating

end Sys2Proof
end

