-- ==== Sys2Proof/Decode.lean ====
section
/-! DEFINITION. The decoder: the classification of spec/30_encoding.md rules R76, R77 and R78, total on tokens and on
bytes; the encoder after it; the opcode table's rows as data; and the table-word entry point. -/

namespace Sys2Proof

open Machine

/-- Classification of one inbound packet (R76, R154): the whole control byte is compared. -/
def decodePacket (p : Packet) : Instr :=
  if p.p0 = 0x04 then .inSysexCont p.p1 p.p2 p.p3
  else if p.p0 = 0x05 then .inSysexEnd1 p.p1 p.p2 p.p3
  else if p.p0 = 0x06 then .inSysexEnd2 p.p1 p.p2 p.p3
  else if p.p0 = 0x07 then .inSysexEnd3 p.p1 p.p2 p.p3
  else .inEvent p.p0 p.p1 p.p2 p.p3

/-- Classification of one host word by the mode at its start and its status byte (R77, R101). -/
def decodeWord (m : Mode) (w : Word) : Instr :=
  if m = .idle ∧ lane w 0 ≠ opener then .outChannel w else .outSysexWord w

/-- Classification of one byte by the mode at the moment it is examined (R78, R104). -/
def decodeByte (m : Mode) (b : Byte) : Instr :=
  match m with
  | .idle => if b = opener then .byteOpen else .byteSkip b
  | .accumulating => if isTerminator b then .byteTerm b else .byteData b

/-- The `CTRL` operation of an event (R79). -/
def decodeEvent : Event → Instr
  | .batch ws => .outBatch ws
  | .batchEnd => .batchEnd
  | .chunk r => .chunk r
  | .iter ws r => .iterate ws r
  | .shutdown => .shutdown
  | .reset => .reset

/-- The instruction of an input token while `out_mode = m`. Total: no token is illegal (R82). -/
def decode (m : Mode) : Token → Instr
  | .packet p => decodePacket p
  | .word w => decodeWord m w
  | .byte b => decodeByte m b
  | .event e => decodeEvent e

/-- Why bytes decode to no instruction. -/
inductive DecodeError where
  /-- Fewer bytes than the format's fixed length (R70). -/
  | truncated (f : Format)
  /-- The format has no bits: its operations are chosen by an event or invoked by a rule (R79). -/
  | noBits (f : Format)
  deriving DecidableEq, Repr

/-- What decoding bytes answers: an instruction with the bytes after it, or a rejection by name. -/
inductive Decoded where
  | ok (i : Instr) (rest : List Byte)
  | rejected (e : DecodeError)
  deriving DecidableEq, Repr

/-- Decode the first token of a byte stream of a given format, bytes in transport order (R52) or lane order (R51). -/
def decodeBytes (f : Format) (m : Mode) (bs : List Byte) : Decoded :=
  match f with
  | .inPkt =>
    match bs with
    | b0 :: b1 :: b2 :: b3 :: rest => .ok (decodePacket ⟨b0, b1, b2, b3⟩) rest
    | _ => .rejected (.truncated .inPkt)
  | .hostWord =>
    match bs with
    | b0 :: b1 :: b2 :: b3 :: rest => .ok (decodeWord m (packWord b0 b1 b2 b3)) rest
    | _ => .rejected (.truncated .hostWord)
  | .outByte =>
    match bs with
    | b :: rest => .ok (decodeByte m b) rest
    | [] => .rejected (.truncated .outByte)
  | .ctrl => .rejected (.noBits .ctrl)
  | .internal => .rejected (.noBits .internal)

/-- The input token of an instruction. The internal procedures have none: they are never decoded from input (R70). -/
def encode : Instr → Option Token
  | .inSysexCont b1 b2 b3 => some (.packet ⟨0x04, b1, b2, b3⟩)
  | .inSysexEnd1 b1 b2 b3 => some (.packet ⟨0x05, b1, b2, b3⟩)
  | .inSysexEnd2 b1 b2 b3 => some (.packet ⟨0x06, b1, b2, b3⟩)
  | .inSysexEnd3 b1 b2 b3 => some (.packet ⟨0x07, b1, b2, b3⟩)
  | .inEvent cb b1 b2 b3 => some (.packet ⟨cb, b1, b2, b3⟩)
  | .outSysexWord w => some (.word w)
  | .outChannel w => some (.word w)
  | .byteOpen => some (.byte 0xF0)
  | .byteSkip b => some (.byte b)
  | .byteData b => some (.byte b)
  | .byteTerm b => some (.byte b)
  | .batchEnd => some (.event .batchEnd)
  | .chunk r => some (.event (.chunk r))
  | .iterate ws r => some (.event (.iter ws r))
  | .shutdown => some (.event .shutdown)
  | .reset => some (.event .reset)
  | .outBatch ws => some (.event (.batch ws))
  | .flushForced => none
  | .flushTerminal => none
  | .inFlush => none

/-- The bytes of a token, in the order of R51 and R52; an event has none. -/
def Token.bytes : Token → List Byte
  | .packet p => bytesOfPacket p
  | .word w => lanes w
  | .byte b => [b]
  | .event _ => []

/-- The bytes of an instruction. -/
def encodeBytes (i : Instr) : List Byte :=
  match encode i with
  | some t => t.bytes
  | none => []

/-- One row of spec/opcode_table.json that has bits; `mode` is the row's `out_mode`, `none` where the row names none.
Masks and matches apply to PKT32, to the host word, or to the byte zero-extended (R72). -/
structure OpcodeRow where
  format : Format
  mode : Option Mode
  mask : Word
  value : Word
  op : Op
  deriving DecidableEq, Repr

/-- The `IN_PKT` rows of the table. -/
def packetRows : List OpcodeRow :=
  [⟨.inPkt, none, 0x000000FF, 0x00000004, .inSysexCont⟩,
   ⟨.inPkt, none, 0x000000FF, 0x00000005, .inSysexEnd1⟩,
   ⟨.inPkt, none, 0x000000FF, 0x00000006, .inSysexEnd2⟩,
   ⟨.inPkt, none, 0x000000FF, 0x00000007, .inSysexEnd3⟩,
   ⟨.inPkt, none, 0x000000FC, 0x00000000, .inEvent⟩,
   ⟨.inPkt, none, 0x000000F8, 0x00000008, .inEvent⟩,
   ⟨.inPkt, none, 0x000000F0, 0x00000010, .inEvent⟩,
   ⟨.inPkt, none, 0x000000E0, 0x00000020, .inEvent⟩,
   ⟨.inPkt, none, 0x000000C0, 0x00000040, .inEvent⟩,
   ⟨.inPkt, none, 0x00000080, 0x00000080, .inEvent⟩]

/-- The `HOST_WORD` rows of the table. -/
def wordRows : List OpcodeRow :=
  [⟨.hostWord, some .idle, 0x000000FF, 0x000000F0, .outSysexWord⟩,
   ⟨.hostWord, some .accumulating, 0x00000000, 0x00000000, .outSysexWord⟩,
   ⟨.hostWord, some .idle, 0x00000080, 0x00000000, .outChannel⟩,
   ⟨.hostWord, some .idle, 0x000000C0, 0x00000080, .outChannel⟩,
   ⟨.hostWord, some .idle, 0x000000E0, 0x000000C0, .outChannel⟩,
   ⟨.hostWord, some .idle, 0x000000F0, 0x000000E0, .outChannel⟩,
   ⟨.hostWord, some .idle, 0x000000FF, 0x000000F1, .outChannel⟩,
   ⟨.hostWord, some .idle, 0x000000FE, 0x000000F2, .outChannel⟩,
   ⟨.hostWord, some .idle, 0x000000FC, 0x000000F4, .outChannel⟩,
   ⟨.hostWord, some .idle, 0x000000F8, 0x000000F8, .outChannel⟩]

/-- The `OUT_BYTE` rows of the table. -/
def byteRows : List OpcodeRow :=
  [⟨.outByte, some .idle, 0xFF, 0xF0, .byteOpen⟩,
   ⟨.outByte, some .idle, 0x80, 0x00, .byteSkip⟩,
   ⟨.outByte, some .idle, 0xC0, 0x80, .byteSkip⟩,
   ⟨.outByte, some .idle, 0xE0, 0xC0, .byteSkip⟩,
   ⟨.outByte, some .idle, 0xF0, 0xE0, .byteSkip⟩,
   ⟨.outByte, some .idle, 0xFF, 0xF1, .byteSkip⟩,
   ⟨.outByte, some .idle, 0xFE, 0xF2, .byteSkip⟩,
   ⟨.outByte, some .idle, 0xFC, 0xF4, .byteSkip⟩,
   ⟨.outByte, some .idle, 0xF8, 0xF8, .byteSkip⟩,
   ⟨.outByte, some .accumulating, 0x80, 0x00, .byteData⟩,
   ⟨.outByte, some .accumulating, 0xFF, 0xF0, .byteData⟩,
   ⟨.outByte, some .accumulating, 0xC0, 0x80, .byteTerm⟩,
   ⟨.outByte, some .accumulating, 0xE0, 0xC0, .byteTerm⟩,
   ⟨.outByte, some .accumulating, 0xF0, 0xE0, .byteTerm⟩,
   ⟨.outByte, some .accumulating, 0xFF, 0xF1, .byteTerm⟩,
   ⟨.outByte, some .accumulating, 0xFE, 0xF2, .byteTerm⟩,
   ⟨.outByte, some .accumulating, 0xFC, 0xF4, .byteTerm⟩,
   ⟨.outByte, some .accumulating, 0xF8, 0xF8, .byteTerm⟩]

/-- The 38 rows of spec/opcode_table.json that have bits. -/
def opcodeRows : List OpcodeRow :=
  packetRows ++ wordRows ++ byteRows

/-- Does a row match the value `v` of its format in mode `m`? -/
def OpcodeRow.selects (r : OpcodeRow) (m : Mode) (v : Word) : Bool :=
  (r.mode == none || r.mode == some m) && (v &&& r.mask) == r.value

/-- The rows of a format that match a value in a mode. -/
def rowsFor (f : Format) (m : Mode) (v : Word) : List OpcodeRow :=
  opcodeRows.filter fun r => r.format == f && r.selects m v

/-- The input token that a table word stands for. A word of up to 8 bits is an `OUT_BYTE`; a longer one is an
`IN_PKT` written as PKT32 (R72). Bits alone do not say which input stream they stand in, so the first row of the table
of that width decides; bits of no width make no token (notes/assumptions/12.md). -/
def tableToken (nbits w : Nat) : Option Token :=
  if nbits = 0 then none
  else if nbits ≤ 8 then some (.byte (BitVec.ofNat 8 w))
  else some (.packet ⟨lane (BitVec.ofNat 32 w) 0, lane (BitVec.ofNat 32 w) 1,
    lane (BitVec.ofNat 32 w) 2, lane (BitVec.ofNat 32 w) 3⟩)

/-- The instruction a table word stands for, in the reset mode `Idle`: its bytes, as the stream carries them, given to
`decodeBytes`. -/
def decodeTableWord (nbits w : Nat) : Option Instr :=
  match tableToken nbits w with
  | none => none
  | some t =>
    match decodeBytes (if nbits ≤ 8 then .outByte else .inPkt) .idle t.bytes with
    | .ok i _ => some i
    | .rejected _ => none

end Sys2Proof
end

