-- ==== Sys2Proof/Machine/Fetch.lean ====
section
/-! DEFINITION. Taking the next input token. The block runs no stored program (spec/20_memory.md rule R64); its position
in its input streams stands in for a program counter (spec/10_state.md rule R36). -/

namespace Sys2Proof.Machine

/-- What the polling loop meets when the environment has nothing for it: an empty poll and a read that timed out
(R191, R192, R194; DESIGN CHOICE, notes/assumptions/2.md). -/
def idleIteration : Token :=
  .event (.iter [] ReadResult.timedOut)

/-- The next input token, and the state whose position has advanced past it (R36). -/
def fetch (s : State) : Token × State :=
  match s.input with
  | [] => (idleIteration, s)
  | t :: rest => (t, { s with input := rest })

/-- The tokens taken in any run state: the start of a new run (R243) and the external signal (R197). Every other
operation runs only while `run_state = Running` (R198, R219; DEDUCED, notes/assumptions/10.md). -/
def takenAlways : Token → Bool
  | .event .reset => true
  | .event .shutdown => true
  | _ => false

/-- Can this token be taken in this run state? -/
def canTake (r : RunState) (t : Token) : Bool :=
  r == .running || takenAlways t

/-- Put the token a table word stands for at the head of the inputs, in the outbound mode and run state in which
`decodeTableWord` reads it (notes/assumptions/13.md). -/
def deliver (s : State) (nbits w : Nat) : State :=
  match tableToken nbits w with
  | none => s
  | some (.byte b) => { s with input := .byte b :: s.input, outMode := .idle, runState := .running }
  | some t => { s with input := t :: s.input, runState := .running }

end Sys2Proof.Machine
end

