-- ==== Sys2Proof/Machine/Step.lean ====
section
/-! DEFINITION. One step: take the next input token, classify it, run its operation to completion
(spec/20_memory.md rule R57). -/

namespace Sys2Proof.Machine

/-- Run the operation of a token that has been taken. -/
def stepToken (t : Token) (s : State) : Host.Outcome State Fault Refusal :=
  if canTake s.runState t then exec (decode s.outMode t) s else .refused .afterStop

/-- One step of the block. -/
def step (s : State) : Host.Outcome State Fault Refusal :=
  stepToken (fetch s).1 (fetch s).2

/-- `s` with a table word as its next input token (notes/assumptions/13.md). -/
def State.withFetchWord (s : State) (nbits w : Nat) : State :=
  deliver s nbits w

end Sys2Proof.Machine
end

