-- ==== Sys2Proof/Safety.lean ====
section
/-! DEFINITION. What claims about a run are stated in: the invariants of a safe run, and what an observer sees of the
effects. -/

namespace Sys2Proof.Machine

/-! ## Observations -/

/-- The host words written to the virtual output port, in order (R156, R195). -/
def hostWords : List Effect → List Word
  | [] => []
  | .transportWrite _ _ :: es => hostWords es
  | .hostWrite _ w :: es => w :: hostWords es

/-- The transport write calls, in order, each with the bytes the block offered (R193). -/
def writeCalls : List Effect → List (List Byte)
  | [] => []
  | .transportWrite bs _ :: es => bs :: writeCalls es
  | .hostWrite _ _ :: es => writeCalls es

/-- All bytes offered to the transport, the calls laid end to end (R58). -/
def offered (es : List Effect) : List Byte :=
  (writeCalls es).flatten

/-- The bytes of host words, low byte first, word by word (R166, D31). -/
def wordBytes (ws : List Word) : List Byte :=
  ws.flatMap lanes

/-- The payload bytes of packets, in order (R32). -/
def payload (ps : List Packet) : List Byte :=
  ps.flatMap fun p => [p.p1, p.p2, p.p3]

/-- Everything the outbound half has produced and not only buffered: the bytes offered and the bytes still queued. -/
def produced (s : State) : List Byte :=
  offered s.trace ++ packetBytes s.outQ

/-! ## Running several operations -/

/-- Go on from a next state; a fault or a refusal stays. -/
def followedBy (r : Result) (f : State → Result) : Result :=
  match r with
  | .next t => f t
  | .fault e => .fault e
  | .refused e => .refused e

/-- The operations of several tokens one after another, each classified in the mode the one before it left. -/
def runTokens : List Token → State → Result
  | [], s => .next s
  | t :: ts, s => followedBy (exec (decode s.outMode t) s) (runTokens ts)

/-- Several steps one after another, stopping at the first fault or refusal. -/
def runSteps : Nat → State → Result
  | 0, s => .next s
  | n + 1, s => followedBy (step s) (runSteps n)

/-- A token that is one operation of a half, taken only while the loop runs: not ITERATE, SHUTDOWN or RESET. -/
def Token.isHalf : Token → Bool
  | .event (.iter _ _) | .event .shutdown | .event .reset => false
  | _ => true

/-- The tokens that give an iteration's outbound part: the batch whole, or its words and the batch end
(notes/assumptions/3.md). -/
def batchParts (ws : List Word) : List (List Token) :=
  [[.event (.batch ws)], ws.map Token.word ++ [.event .batchEnd]]

/-- The tokens that give an iteration's inbound part: the read whole, or its packets where the block's contract admits
it (R150 to R153), none for a failed read (notes/assumptions/3.md). -/
def readParts (r : ReadResult) : List (List Token) :=
  [.event (.chunk r)] ::
    (if r.status ≠ .success then [[]]
    else if r.bytes.length ≤ hardware.maxChunkBytes ∧ r.bytes.length % 4 = 0 then
      [(packetsOf r.bytes).map Token.packet]
    else [])

/-! ## Framing -/

/-- What R110 and R111 say of the packets `ps` of a terminal flush of the buffer `buf`: their number, their payload
with its zero padding, CIN 0x04 before the last, and the last CIN by the length. -/
abbrev TerminalFraming (buf : List Byte) (ps : List Packet) : Prop :=
  ps.length = (buf.length + 2) / 3 ∧
    payload ps = buf ++ List.replicate (3 * ((buf.length + 2) / 3) - buf.length) 0 ∧
    (∀ p ∈ ps.dropLast, p.p0 = 0x04) ∧
    ps.getLast?.map Packet.p0 = some (BitVec.ofNat 8 (4 + ((buf.length - 1) % 3 + 1)))

/-- What R112 says of the packets `ps` of a forced flush of a full buffer: 16 full triples, every CIN 0x04. -/
abbrev ForcedFraming (buf : List Byte) (ps : List Packet) : Prop :=
  ps.length = 16 ∧ (∀ p ∈ ps, p.p0 = 0x04) ∧ payload ps = buf

/-! ## Invariants -/

/-- Between two operations: the outbound buffer holds at most 47 bytes (R23), it is empty while `Idle` (R24), the
inbound buffer holds at most 3 bytes (R30), and a stopped run has seen a shutdown request (R197). -/
abbrev State.Inv (s : State) : Prop :=
  s.outBuf.length ≤ 47 ∧ (s.outMode = .idle → s.outBuf = []) ∧ s.inBuf.length ≤ 3 ∧
    (s.runState = .stopped → s.shutdownReq = true)

/-- A transport write call carries a whole number of packets, one or more (R54, R193), each with a CIN of 0x00 to 0x0F
(R74). -/
def writeWellFramed (bs : List Byte) : Bool :=
  bs.length % 4 == 0 && 0 < bs.length && (packetsOf bs).all fun p => decide (p.p0.toNat ≤ 15)

/-- Every write call made is well framed, and every queued packet has a CIN of 0x00 to 0x0F. -/
abbrev State.Framed (s : State) : Prop :=
  (∀ bs ∈ writeCalls s.trace, writeWellFramed bs = true) ∧ ∀ p ∈ s.outQ, p.p0.toNat ≤ 15

/-- A token that is a whole batch, chunk, iteration, batch end, signal or reset, not one word, byte or packet of
one. -/
def Token.isEvent : Token → Bool
  | .event _ => true
  | _ => false

/-- Between batches the packet queue is empty (R25), when the inputs to come are whole events. -/
abbrev State.QueueDrained (s : State) : Prop :=
  s.input.all Token.isEvent = true ∧ s.outQ = []

/-! ## The fields of a half -/

/-- The outbound state of R21 to R25. -/
abbrev State.outboundView (s : State) : Mode × List Byte × List Packet :=
  (s.outMode, s.outBuf, s.outQ)

/-- The inbound state of R28 and R29. -/
abbrev State.inboundView (s : State) : Mode × List Byte :=
  (s.inMode, s.inBuf)

/-- The sequencing state of R34 and R35. -/
abbrev State.loopView (s : State) : RunState × Bool :=
  (s.runState, s.shutdownReq)

/-- The state of R20: the seven fields of the block itself, without the model's own. -/
abbrev State.block (s : State) : (Mode × List Byte × List Packet) × (Mode × List Byte) × RunState × Bool :=
  (s.outboundView, s.inboundView, s.loopView)

/-- The operations that make up the outbound half (spec/40_outbound_framer.md). -/
def isOutbound : Op → Bool
  | .outSysexWord | .outChannel | .byteOpen | .byteSkip | .byteData | .byteTerm | .batchEnd | .flushForced
  | .flushTerminal | .outBatch => true
  | .inSysexCont | .inSysexEnd1 | .inSysexEnd2 | .inSysexEnd3 | .inEvent | .chunk | .iterate | .shutdown | .reset
  | .inFlush => false

/-- The operations that make up the inbound half (spec/41_inbound_decoder.md). -/
def isInbound : Op → Bool
  | .inSysexCont | .inSysexEnd1 | .inSysexEnd2 | .inSysexEnd3 | .inEvent | .chunk | .inFlush => true
  | .outSysexWord | .outChannel | .byteOpen | .byteSkip | .byteData | .byteTerm | .batchEnd | .flushForced
  | .flushTerminal | .outBatch | .iterate | .shutdown | .reset => false

end Sys2Proof.Machine
end

