-- ==== Sys2Proof/Certificates/Slice0/Obligations.lean ====
section
/-! DEFINITION. The statements for the provers. Each docstring names the rule of spec/ it formalises. A value that the
model chose, or that the spec marks as its own decision, is named as such. -/

open Sys2Proof Sys2Proof.Machine

/-! ## Reset, steps and decoding -/

/-- R241: the seven fields of the block right after reset. The two modes and `shutdown_req` are the spec's decision D12
(notes/assumptions/15.md). -/
def Obligations.ResetLeavesTheEntryState : Prop :=
  State.reset.outMode = .idle ∧ State.reset.outBuf = [] ∧ State.reset.outQ = [] ∧
    State.reset.inMode = .idle ∧ State.reset.inBuf = [] ∧
    State.reset.runState = .running ∧ State.reset.shutdownReq = false

/-- R36, R57, R76 to R79: while the loop runs, a step takes the next input token, moves the position past it, and is
`exec` of the operation that the token's bytes, or its event, decode to. -/
def Obligations.StepRunsTheDecodedToken : Prop :=
  ∀ (s : State) (rest : List Token) (i : Instr), s.runState = .running →
    (∀ p, s.input = .packet p :: rest → decodeBytes .inPkt s.outMode [p.p0, p.p1, p.p2, p.p3] = .ok i [] →
      step s = exec i { s with input := rest }) ∧
    (∀ w, s.input = .word w :: rest →
      decodeBytes .hostWord s.outMode
        [w.extractLsb' 0 8, w.extractLsb' 8 8, w.extractLsb' 16 8, w.extractLsb' 24 8] = .ok i [] →
      step s = exec i { s with input := rest }) ∧
    (∀ b, s.input = .byte b :: rest → decodeBytes .outByte s.outMode [b] = .ok i [] →
      step s = exec i { s with input := rest }) ∧
    (∀ e, s.input = .event e :: rest → decodeEvent e = i → step s = exec i { s with input := rest })

/-- Model's choice (notes/assumptions/2.md and 10.md): with nothing left to take, a step is an idle iteration; after
`Stopped` a step takes only RESET and SHUTDOWN and refuses everything else. -/
def Obligations.StepWithoutInputOrAfterStop : Prop :=
  (∀ s : State, s.input = [] → s.runState = .running → step s = exec (.iterate [] ⟨.timeout, []⟩) s) ∧
    (∀ s : State, s.input = [] → s.runState = .stopped → step s = .refused .afterStop) ∧
    (∀ (s : State) (t : Token) (rest : List Token), s.input = t :: rest → s.runState = .stopped →
      t ≠ .event .reset → t ≠ .event .shutdown → step s = .refused .afterStop) ∧
    (∀ (s : State) (rest : List Token), s.input = .event .reset :: rest →
      step s = exec .reset { s with input := rest }) ∧
    (∀ (s : State) (rest : List Token), s.input = .event .shutdown :: rest →
      step s = exec .shutdown { s with input := rest })

/-- R71 to R78: one token of each bit format and several classes, written out from the encoding tables. -/
def Obligations.SampleTokensDecode : Prop :=
  decodeBytes .inPkt .idle [0x04, 0x11, 0x22, 0x33] = .ok (.inSysexCont 0x11 0x22 0x33) [] ∧
    decodeBytes .inPkt .idle [0x06, 0x44, 0x55, 0x00] = .ok (.inSysexEnd2 0x44 0x55 0x00) [] ∧
    decodeBytes .inPkt .accumulating [0x09, 0x90, 0x3C, 0x40] = .ok (.inEvent 0x09 0x90 0x3C 0x40) [] ∧
    decodeBytes .inPkt .idle [0x14, 0xF0, 0x01, 0x02] = .ok (.inEvent 0x14 0xF0 0x01 0x02) [] ∧
    decodeBytes .hostWord .idle [0x90, 0x3C, 0x40, 0x00] = .ok (.outChannel 0x00403C90) [] ∧
    decodeBytes .hostWord .idle [0xF0, 0x41, 0x10, 0xF7] = .ok (.outSysexWord 0xF71041F0) [] ∧
    decodeBytes .hostWord .accumulating [0x90, 0x3C, 0x40, 0x00] = .ok (.outSysexWord 0x00403C90) [] ∧
    decodeBytes .outByte .idle [0xF0] = .ok .byteOpen [] ∧
    decodeBytes .outByte .idle [0x90] = .ok (.byteSkip 0x90) [] ∧
    decodeBytes .outByte .accumulating [0xF0] = .ok (.byteData 0xF0) [] ∧
    decodeBytes .outByte .accumulating [0xF7] = .ok (.byteTerm 0xF7) []

/-- Model's choice (notes/assumptions/12.md and 13.md): a table word placed by `withFetchWord` is what the next step
runs. -/
def Obligations.TableWordIsTheNextOperation : Prop :=
  ∀ (s : State) (nbits w : Nat) (i : Instr), decodeTableWord nbits w = some i →
    step (s.withFetchWord nbits w) =
      exec i { s with runState := .running, outMode := if nbits ≤ 8 then .idle else s.outMode }

/-- R76: each of the 256 values of the control byte picks exactly one operation; the four SysEx values pick theirs and
every other value picks IN_EVENT, which uses the control byte for nothing further. -/
def Obligations.ControlBytePicksTheOperation : Prop :=
  (∀ (m : Mode) (cb b1 b2 b3 : Byte),
    decode m (.packet ⟨cb, b1, b2, b3⟩) =
      if cb.toNat = 4 then .inSysexCont b1 b2 b3
      else if cb.toNat = 5 then .inSysexEnd1 b1 b2 b3
      else if cb.toNat = 6 then .inSysexEnd2 b1 b2 b3
      else if cb.toNat = 7 then .inSysexEnd3 b1 b2 b3
      else .inEvent cb b1 b2 b3) ∧
  ∀ (cb cb' b1 b2 b3 : Byte) (s : State), exec (.inEvent cb b1 b2 b3) s = exec (.inEvent cb' b1 b2 b3) s

/-- R78: the byte operation by the mode at the moment the byte is examined, over the ranges of the rule's table. -/
def Obligations.ModeAndBytePickTheByteOperation : Prop :=
  ∀ b : Byte,
    decode .idle (.byte b) = (if b.toNat = 0xF0 then .byteOpen else .byteSkip b) ∧
    decode .accumulating (.byte b) =
      (if b.toNat ≤ 0x7F ∨ b.toNat = 0xF0 then .byteData b else .byteTerm b)

/-- R77 (the split by `e0` alone is the spec's decision D3): the word operation by the mode and the status byte. -/
def Obligations.ModeAndStatusPickTheWordOperation : Prop :=
  ∀ w : Word,
    decode .idle (.word w) = (if w.toNat % 256 = 0xF0 then .outSysexWord w else .outChannel w) ∧
    decode .accumulating (.word w) = .outSysexWord w

/-- R83: a control byte with a nonzero high nibble is an IN_EVENT. -/
def Obligations.NonzeroCableNibbleIsAnEvent : Prop :=
  ∀ (m : Mode) (cb b1 b2 b3 : Byte), 16 ≤ cb.toNat →
    decode m (.packet ⟨cb, b1, b2, b3⟩) = .inEvent cb b1 b2 b3

/-- R72, R76 to R78 and spec/opcode_table.json: exactly one row of the table matches each token of each bit format in
each mode, and it is the row of the operation the decoder gives. -/
def Obligations.ExactlyOneTableRowMatches : Prop :=
  (∀ (m : Mode) (p : Packet),
    (rowsFor .inPkt m (p.p3 ++ p.p2 ++ p.p1 ++ p.p0)).map OpcodeRow.op = [(decode m (.packet p)).op]) ∧
  (∀ (m : Mode) (w : Word), (rowsFor .hostWord m w).map OpcodeRow.op = [(decode m (.word w)).op]) ∧
  (∀ (m : Mode) (b : Byte), (rowsFor .outByte m (b.setWidth 32)).map OpcodeRow.op = [(decode m (.byte b)).op])

/-- R70 to R79: decoding the token of a well-formed instruction gives it back, every decoded instruction is well formed
and encodes to its token, and the same through the bytes of the three bit formats. -/
def Obligations.DecodeInvertsEncode : Prop :=
  (∀ (m : Mode) (i : Instr) (t : Token), i.wfIn m = true → encode i = some t → decode m t = i) ∧
  (∀ (m : Mode) (t : Token), (decode m t).wfIn m = true ∧ encode (decode m t) = some t) ∧
  (∀ (m : Mode) (i : Instr) (rest : List Byte), i.wfIn m = true →
    i.op.format = .inPkt ∨ i.op.format = .hostWord ∨ i.op.format = .outByte →
    decodeBytes i.op.format m (encodeBytes i ++ rest) = .ok i rest)

/-! ## Outbound operations -/

/-- R102: the packet `[(e0 & 0xF0) >> 4, e0, e1, e2]` is queued; nothing else changes. -/
def Obligations.OutChannelQueuesOnePacket : Prop :=
  ∀ (w : Word) (s : State),
    exec (.outChannel w) s = .next { s with
      outQ := s.outQ ++ [⟨BitVec.ofNat 8 (w.toNat % 256 / 16), BitVec.ofNat 8 w.toNat,
        BitVec.ofNat 8 (w.toNat / 256), BitVec.ofNat 8 (w.toNat / 65536)⟩] }

/-- R105 (the spec's decision D4): BYTE_SKIP has no effect. -/
def Obligations.ByteSkipChangesNothing : Prop :=
  ∀ (b : Byte) (s : State), exec (.byteSkip b) s = .next s

/-- R106 (the spec's decision D2): BYTE_OPEN enters `Accumulating` and goes on as BYTE_DATA of the opener on this
hardware; with `OUT_OPENER_IN_BUFFER = false` it only enters `Accumulating`. -/
def Obligations.ByteOpenEntersAccumulating : Prop :=
  (∀ s : State, exec .byteOpen s = exec (.byteData 0xF0) { s with outMode := .accumulating }) ∧
  (∀ s : State, s.outBuf = [] →
    exec .byteOpen s = .next { s with outMode := .accumulating, outBuf := [0xF0] }) ∧
  (∀ (p : Params) (s : State), p.openerInBuffer = false → byteOpen p s = { s with outMode := .accumulating })

/-- R107: BYTE_DATA appends; the append that makes the length 48 is followed by the forced flush of R112, and the mode
stays as it was. -/
def Obligations.ByteDataAppendsAndFlushesAt48 : Prop :=
  ∀ (b : Byte) (s : State),
    (s.outBuf.length ≠ 47 → exec (.byteData b) s = .next { s with outBuf := s.outBuf ++ [b] }) ∧
    (s.outBuf.length = 47 → ∃ ps, ForcedFraming (s.outBuf ++ [b]) ps ∧
      exec (.byteData b) s = .next { s with outBuf := [], outQ := s.outQ ++ ps })

/-- R108, R110, R111: BYTE_TERM appends the terminator, frames the whole buffer and returns to `Idle`. -/
def Obligations.ByteTermFramesTheStream : Prop :=
  ∀ (b : Byte) (s : State), ∃ ps, TerminalFraming (s.outBuf ++ [b]) ps ∧
    exec (.byteTerm b) s = .next { s with outMode := .idle, outBuf := [], outQ := s.outQ ++ ps }

/-- R110, R111, R113: FLUSH_TERMINAL frames the whole buffer; an empty one has no effect. -/
def Obligations.FlushTerminalFramesTheBuffer : Prop :=
  ∀ s : State,
    (s.outBuf = [] → exec .flushTerminal s = .next s) ∧
    (s.outBuf ≠ [] → ∃ ps, TerminalFraming s.outBuf ps ∧
      exec .flushTerminal s = .next { s with outBuf := [], outQ := s.outQ ++ ps })

/-- R112, R113: FLUSH_FORCED of a full buffer is 16 CIN 0x04 triples; an empty buffer has no effect. Outside the rule's
operand range (notes/assumptions/6.md and 14.md) the model reads cells beyond the length as any value and drops bytes
beyond 48. -/
def Obligations.FlushForcedSendsSixteenTriples : Prop :=
  ∀ s : State,
    (s.outBuf = [] → exec .flushForced s = .next s) ∧
    (s.outBuf.length = 48 → ∃ ps, ForcedFraming s.outBuf ps ∧
      exec .flushForced s = .next { s with outBuf := [], outQ := s.outQ ++ ps }) ∧
    (0 < s.outBuf.length → s.outBuf.length < 48 → ∃ ps dead, ForcedFraming (s.outBuf ++ dead) ps ∧
      exec .flushForced s =
        .next { s with outBuf := [], outQ := s.outQ ++ ps, cellDraws := s.cellDraws + 1 }) ∧
    (48 < s.outBuf.length → ∃ ps, ForcedFraming (s.outBuf.take 48) ps ∧
      exec .flushForced s = .next { s with outBuf := [], outQ := s.outQ ++ ps })

/-- R104: OutByte is the operation that the mode at this moment and the byte pick. That a byte other than 0xF0 in `Idle`
leaves the state as it was is R105's effect, the spec's decision D4 (notes/assumptions/20.md). -/
def Obligations.OutByteRunsThePickedOperation : Prop :=
  ∀ (b : Byte) (s : State),
    exec (decode s.outMode (.byte b)) s = .next (outByte hardware b s) ∧
    (s.outMode = .idle → b ≠ 0xF0 → outByte hardware b s = s) ∧
    (s.outMode = .accumulating → b ≠ 0xF0 → b.toNat < 128 →
      exec (.byteData b) s = .next (outByte hardware b s)) ∧
    (s.outMode = .accumulating → b ≠ 0xF0 → 128 ≤ b.toNat →
      exec (.byteTerm b) s = .next (outByte hardware b s)) ∧
    (s.outMode = .idle → exec .byteOpen s = .next (outByte hardware 0xF0 s)) ∧
    (s.outMode = .accumulating → exec (.byteData 0xF0) s = .next (outByte hardware 0xF0 s))

/-- R103 (bytes after a terminator: the spec's decision D4): OUT_SYSEX_WORD completes, and is the byte operations of
the word's four bytes in lane order, the mode read again for each. -/
def Obligations.OutSysexWordExaminesFourBytes : Prop :=
  ∀ (w : Word) (s : State), ∃ t, exec (.outSysexWord w) s = .next t ∧
    runTokens [.byte (BitVec.ofNat 8 w.toNat), .byte (BitVec.ofNat 8 (w.toNat / 256)),
      .byte (BitVec.ofNat 8 (w.toNat / 65536)), .byte (BitVec.ofNat 8 (w.toNat / 16777216))] s = .next t

/-- R100, R101: OUT_BATCH completes, and is the word operations of its words in order, each classified in the mode the
one before left, and then BATCH_END. -/
def Obligations.OutBatchRunsItsWordsInOrder : Prop :=
  ∀ (ws : List Word) (s : State), ∃ t, exec (.outBatch ws) s = .next t ∧
    runTokens (ws.map Token.word ++ [.event .batchEnd]) s = .next t

/-- R116 with `PER_BATCH` (the spec's decisions D5 and D6): one write call with all queued packets, whatever it
reports; none when nothing is queued. -/
def Obligations.BatchEndWritesTheQueueOnce : Prop :=
  ∀ s : State,
    (s.outQ = [] → exec .batchEnd s = .next s) ∧
    (s.outQ ≠ [] → ∃ r, exec .batchEnd s = .next { s with
      outQ := []
      trace := s.trace ++ [.transportWrite (s.outQ.flatMap fun p => [p.p0, p.p1, p.p2, p.p3]) r]
      writeDraws := s.writeDraws + 1 })

/-- R117 (the spec's decision D5): under `PER_FLUSH` a flush that queued a packet ends with one write call that carries
the packets queued before it too. The forced flush's packets carry the buffer's full triples in order, and all of it
where the maximum is a multiple of 3 (R11, R112). -/
def Obligations.PerFlushWritesAtEveryFlush : Prop :=
  ∀ (p : Params) (s : State), p.writeGrouping = .perFlush → 3 ≤ p.outSysexMax → s.outBuf ≠ [] →
    (∃ ps r, TerminalFraming s.outBuf ps ∧ flushTerminal p s = { s with
      outBuf := [], outQ := []
      trace := s.trace ++ [.transportWrite (packetBytes (s.outQ ++ ps)) r]
      writeDraws := s.writeDraws + 1 }) ∧
    (s.outBuf.length = p.outSysexMax → ∃ ps r, ps.length = p.outSysexMax / 3 ∧ (∀ q ∈ ps, q.p0 = 0x04) ∧
      payload ps = s.outBuf.take (3 * (p.outSysexMax / 3)) ∧
      flushForced p s = { s with
        outBuf := [], outQ := []
        trace := s.trace ++ [.transportWrite (packetBytes (s.outQ ++ ps)) r]
        writeDraws := s.writeDraws + 1 })

/-- R118: whatever a write call reports, the block's state after it is the state before it. -/
def Obligations.WriteResultsAreNotConsumed : Prop :=
  ∀ (bs : List Byte) (r : WriteResult) (s : State),
    (transportWrite bs r s).block = s.block ∧
      writeCalls (transportWrite bs r s).trace = writeCalls s.trace ++ [bs]

/-- R247 (rests on the spec's decision D4): a channel message sent while a SysEx is open terminates it by its status
byte, and its other bytes are lost. -/
def Obligations.ChannelMessageInsideSysexTerminatesIt : Prop :=
  ∀ (w : Word) (s : State), s.outMode = .accumulating →
    128 ≤ (w.extractLsb' 0 8).toNat → w.extractLsb' 0 8 ≠ 0xF0 → w.extractLsb' 8 8 ≠ 0xF0 →
    w.extractLsb' 16 8 ≠ 0xF0 → w.extractLsb' 24 8 ≠ 0xF0 →
    ∃ ps, TerminalFraming (s.outBuf ++ [w.extractLsb' 0 8]) ps ∧
      exec (decode s.outMode (.word w)) s =
        .next { s with outMode := .idle, outBuf := [], outQ := s.outQ ++ ps }

/-- R114: the packets of one stream of `T` bytes, terminator included, from an empty buffer: their number, how many
have CIN 0x04, the last CIN, and their payload. -/
def Obligations.StreamPacketCounts : Prop :=
  ∀ (ds : List Byte) (t : Byte) (s : State), s.outMode = .accumulating → s.outBuf = [] →
    (∀ b ∈ ds, b.toNat < 128 ∨ b = 0xF0) → 128 ≤ t.toNat → t ≠ 0xF0 →
    ∃ u ps, runTokens ((ds ++ [t]).map Token.byte) s = .next u ∧
      u.outQ = s.outQ ++ ps ∧ u.outMode = .idle ∧ u.outBuf = [] ∧
      ps.length = 16 * (ds.length / 48) + (ds.length + 1 - 48 * (ds.length / 48) + 2) / 3 ∧
      ps.countP (fun p => p.p0 == 0x04) =
        16 * (ds.length / 48) + (ds.length + 1 - 48 * (ds.length / 48) - 1) / 3 ∧
      ps.countP (fun p => p.p0 != 0x04) = 1 ∧
      ps.getLast?.map Packet.p0 =
        some (BitVec.ofNat 8 (4 + ((ds.length + 1 - 48 * (ds.length / 48) - 1) % 3 + 1))) ∧
      payload ps = (ds ++ [t]) ++ List.replicate (3 * ps.length - (ds.length + 1)) 0

/-- R58, R117: the two write groupings offer the same byte sequence and leave the same outbound state. -/
def Obligations.WriteGroupingsOfferTheSameBytes : Prop :=
  ∀ (p q : Params) (ws : List Word) (s : State),
    p.openerInBuffer = q.openerInBuffer → p.outSysexMax = q.outSysexMax →
    offered (outBatch p ws s).trace = offered (outBatch q ws s).trace ∧
      (outBatch p ws s).outboundView = (outBatch q ws s).outboundView

/-! ## Inbound operations -/

/-- R164: one event word `b1 | b2 << 8 | b3 << 16` with its own timestamp, whatever the control byte; the SysEx buffer
and the mode are not touched. -/
def Obligations.InEventEmitsOneWord : Prop :=
  ∀ (cb b1 b2 b3 : Byte) (s : State), ∃ ts, exec (.inEvent cb b1 b2 b3) s = .next { s with
    trace := s.trace ++ [.hostWrite ts ((0 : Byte) ++ b3 ++ b2 ++ b1)], tsDraws := s.tsDraws + 1 }

/-- R158: IN_SYSEX_CONT by the length of the buffer before the packet. That `in_mode` becomes `Accumulating` is R159's
effect, the spec's decision D11 (notes/assumptions/20.md). -/
def Obligations.InSysexContByBufferLength : Prop :=
  ∀ (b1 b2 b3 : Byte) (s : State),
    (s.inBuf = [] → exec (.inSysexCont b1 b2 b3) s =
      .next { s with inBuf := [b1, b2, b3], inMode := .accumulating }) ∧
    (∀ x, s.inBuf = [x] → ∃ ts, exec (.inSysexCont b1 b2 b3) s = .next { s with
      inBuf := [], inMode := .accumulating
      trace := s.trace ++ [.hostWrite ts (b3 ++ b2 ++ b1 ++ x)], tsDraws := s.tsDraws + 1 }) ∧
    (∀ x y, s.inBuf = [x, y] → ∃ ts, exec (.inSysexCont b1 b2 b3) s = .next { s with
      inBuf := [b3], inMode := .accumulating
      trace := s.trace ++ [.hostWrite ts (b2 ++ b1 ++ y ++ x)], tsDraws := s.tsDraws + 1 }) ∧
    (∀ x y z, s.inBuf = [x, y, z] → ∃ ts, exec (.inSysexCont b1 b2 b3) s = .next { s with
      inBuf := [b2, b3], inMode := .accumulating
      trace := s.trace ++ [.hostWrite ts (b1 ++ z ++ y ++ x)], tsDraws := s.tsDraws + 1 })

/-- R160 to R163: the three terminal packets by the length of the buffer before the packet; the control byte changes
nothing. That `in_mode` becomes `Idle` is R159's effect, the spec's decision D11 (notes/assumptions/20.md). -/
def Obligations.InSysexEndByBufferLength : Prop :=
  ∀ (b1 b2 b3 : Byte) (i : Instr) (s : State),
    i = .inSysexEnd1 b1 b2 b3 ∨ i = .inSysexEnd2 b1 b2 b3 ∨ i = .inSysexEnd3 b1 b2 b3 →
    (s.inBuf = [] → ∃ ts, exec i s = .next { s with
      inMode := .idle
      trace := s.trace ++ [.hostWrite ts ((0 : Byte) ++ b3 ++ b2 ++ b1)], tsDraws := s.tsDraws + 1 }) ∧
    (∀ x, s.inBuf = [x] → ∃ ts, exec i s = .next { s with
      inBuf := [], inMode := .idle
      trace := s.trace ++ [.hostWrite ts (b3 ++ b2 ++ b1 ++ x)], tsDraws := s.tsDraws + 1 }) ∧
    (∀ x y, s.inBuf = [x, y] → ∃ ts ts', exec i s = .next { s with
      inBuf := [], inMode := .idle
      trace := s.trace ++ [.hostWrite ts (b2 ++ b1 ++ y ++ x), .hostWrite ts' (b3.setWidth 32)]
      tsDraws := s.tsDraws + 2 }) ∧
    (∀ x y z, s.inBuf = [x, y, z] → ∃ ts ts', exec i s = .next { s with
      inBuf := [], inMode := .idle
      trace := s.trace ++ [.hostWrite ts (b1 ++ z ++ y ++ x), .hostWrite ts' ((0 : BitVec 16) ++ b3 ++ b2)]
      tsDraws := s.tsDraws + 2 })

/-- R157: IN_FLUSH packs one to four bytes low byte first, zero filled, and empties the buffer; an empty buffer has no
effect. -/
def Obligations.InFlushPacksTheBuffer : Prop :=
  ∀ s : State,
    (s.inBuf = [] → exec .inFlush s = .next s) ∧
    (s.inBuf ≠ [] → s.inBuf.length ≤ 4 → ∃ ts w, lanes w = s.inBuf ++ List.replicate (4 - s.inBuf.length) 0 ∧
      exec .inFlush s = .next { s with
        inBuf := [], trace := s.trace ++ [.hostWrite ts w], tsDraws := s.tsDraws + 1 })

/-- R151 to R153, R215 (the spec's decisions D7 and D8): what CHUNK does by status, length and alignment, in that
order. -/
def Obligations.ChunkTestsStatusLengthAlignment : Prop :=
  ∀ (r : ReadResult) (s : State),
    (r.status ≠ .success → exec (.chunk r) s = .next s) ∧
    (r.status = .success → 64 < r.bytes.length → exec (.chunk r) s = .refused .chunkTooLong) ∧
    (r.status = .success → r.bytes.length ≤ 64 → r.bytes.length % 4 ≠ 0 →
      exec (.chunk r) s = .refused .partialPacket)

/-- R150, R154: a `Success` chunk of whole packets completes, and is the packet operations of its packets in order. -/
def Obligations.ChunkRunsItsPacketsInOrder : Prop :=
  ∀ (ps : List Packet) (s : State), ps.length ≤ 16 →
    ∃ t, exec (.chunk ⟨.success, ps.flatMap fun p => [p.p0, p.p1, p.p2, p.p3]⟩) s = .next t ∧
      runTokens (ps.map Token.packet) s = .next t

/-- R165: the inbound side never inspects a payload byte. Packets with the same control bytes, from buffers of the same
length, give the same number of words, the same buffer length and the same mode. -/
def Obligations.InboundNeverInspectsPayload : Prop :=
  ∀ (ps qs : List Packet) (s s' : State), ps.map Packet.p0 = qs.map Packet.p0 →
    s.inBuf.length = s'.inBuf.length → s.inMode = s'.inMode →
    ∃ t t' ws ws', runTokens (ps.map Token.packet) s = .next t ∧ runTokens (qs.map Token.packet) s' = .next t' ∧
      hostWords t.trace = hostWords s.trace ++ ws ∧ hostWords t'.trace = hostWords s'.trace ++ ws' ∧
      ws.length = ws'.length ∧ t.inBuf.length = t'.inBuf.length ∧ t.inMode = t'.inMode

/-- R166: the words of a stream of `P` SysEx packets from an empty buffer: their number and their bytes. -/
def Obligations.StreamWordCounts : Prop :=
  ∀ (ps : List Packet) (q : Packet) (s : State), s.inBuf = [] → (∀ p ∈ ps, p.p0 = 0x04) →
    q.p0 = 0x05 ∨ q.p0 = 0x06 ∨ q.p0 = 0x07 →
    ∃ u ws, runTokens ((ps ++ [q]).map Token.packet) s = .next u ∧ u.inBuf = [] ∧
      hostWords u.trace = hostWords s.trace ++ ws ∧
      ws.length = (3 * (ps.length + 1) + 3) / 4 ∧
      wordBytes ws = payload (ps ++ [q]) ++ List.replicate (4 * ws.length - 3 * (ps.length + 1)) 0

/-- The source's round-trip property as spec/90_conflicts.md C12 reads it (the spec's decision D31): a SysEx stream
packed four bytes a word, sent out from every state whose outbound half is as after reset, and given back packet by
packet to every state whose inbound half is as after reset, is yielded back in order, and every later byte is 0x00. That
the opener is sent is the spec's decision D2, and that the batch makes one call its decision D5 (both
notes/assumptions/9.md). -/
def Obligations.SysexRoundTrip : Prop :=
  ∀ (ds : List Byte) (t : Byte) (s s' : State), (∀ b ∈ ds, b.toNat < 128) → 128 ≤ t.toNat → t ≠ 0xF0 →
    s.outboundView = State.reset.outboundView → s'.inboundView = State.reset.inboundView →
    ∃ u ps v ws k, exec (.outBatch (sysexWords ([0xF0] ++ ds ++ [t]))) s = .next u ∧
      writeCalls u.trace = writeCalls s.trace ++ [packetBytes ps] ∧
      u.outboundView = State.reset.outboundView ∧
      runTokens (ps.map Token.packet) s' = .next v ∧ v.inboundView = State.reset.inboundView ∧
      hostWords v.trace = hostWords s'.trace ++ ws ∧
      wordBytes ws = ([0xF0] ++ ds ++ [t]) ++ List.replicate k 0

/-- R86: the words of `sysex B0 .. Bn-1` are `ceil(n/4)` in number, and hold the bytes in lane order with zero fill. -/
def Obligations.SysexWordsHoldTheBytes : Prop :=
  ∀ bs : List Byte, (sysexWords bs).length = (bs.length + 3) / 4 ∧
    wordBytes (sysexWords bs) = bs ++ List.replicate (4 * ((bs.length + 3) / 4) - bs.length) 0

/-! ## The polling loop -/

/-- R191: ITERATE is refused after `Stopped`; it stops the run on a shutdown request before it takes anything; else it
is the outbound batch and then the inbound chunk. -/
def Obligations.IterateRunsBatchThenChunk : Prop :=
  ∀ (ws : List Word) (r : ReadResult) (s : State),
    (s.runState = .stopped → exec (.iterate ws r) s = .refused .afterStop) ∧
    (s.runState = .running → s.shutdownReq = true →
      exec (.iterate ws r) s = .next { s with runState := .stopped }) ∧
    (s.runState = .running → s.shutdownReq = false →
      exec (.iterate ws r) s = runTokens [.event (.batch ws), .event (.chunk r)] s)

/-- R191, R150: an iteration completes while the loop runs, for every batch and every read the block's contract admits.
The contract on a read is the spec's decision D7 (notes/assumptions/20.md) and a failed read is taken as D8 says; that
every call returns is its decision D21 (notes/assumptions/17.md). That CHUNK itself completes in a stopped state too is
the model's choice, since `exec` tests the run state in ITERATE only and `step` refuses there (notes/assumptions/10.md). -/
def Obligations.IterateAndChunkComplete : Prop :=
  ∀ (ws : List Word) (r : ReadResult) (s : State),
    r.status ≠ .success ∨ (r.bytes.length ≤ 64 ∧ r.bytes.length % 4 = 0) →
    (∃ t, exec (.chunk r) s = .next t) ∧
      (s.runState = .running → ∃ t, exec (.iterate ws r) s = .next t)

/-- R57, R210 (D15): every operation but CHUNK and ITERATE completes in every state, whatever its operands. That every
interface call returns is the spec's decision D21 (notes/assumptions/17.md). Two parts of 'every state, whatever its
operands' are the model's choice: a stopped state, where R198 runs no operation and `step` refuses, but `exec` tests the
run state in ITERATE only (notes/assumptions/10.md), and operands outside an operation's rule, which run the pseudocode
as written (notes/assumptions/14.md). -/
def Obligations.OperationsComplete : Prop :=
  ∀ (i : Instr) (s : State), i.op ≠ .chunk → i.op ≠ .iterate → ∃ t, exec i s = .next t

/-- R197 (the spec's decision D9): SHUTDOWN sets the flag and changes nothing else. -/
def Obligations.ShutdownSetsTheFlag : Prop :=
  ∀ s : State, exec .shutdown s = .next { s with shutdownReq := true }

/-- R240, R241, R243: RESET gives the seven fields the values of R241 from any state. That the inputs, the effects and
the draw counters go on is the model's choice (notes/assumptions/8.md). -/
def Obligations.ResetStartsANewRun : Prop :=
  ∀ s : State, exec .reset s = .next { s with
    outMode := .idle, outBuf := [], outQ := [], inMode := .idle, inBuf := []
    runState := .running, shutdownReq := false }

/-- R66 (the place of the stop test is the spec's decision D9): a signal that arrives at any point of an iteration leaves
the iteration as it would have been, be it before, between or after the batch's words, the batch end and the read's
packets, or the batch and the read taken whole, refused reads included. That the parts of an iteration are tokens of
their own is the model's choice (notes/assumptions/3.md). -/
def Obligations.ShutdownInsideAnIterationIsSeenAfterIt : Prop :=
  ∀ (ws : List Word) (r : ReadResult) (rest pre post : List Token) (s : State),
    s.runState = .running → s.shutdownReq = false →
    (∃ out ∈ batchParts ws, ∃ inn ∈ readParts r, pre ++ post = out ++ inn) →
    runSteps (pre.length + 1 + post.length) { s with input := pre ++ [.event .shutdown] ++ post ++ rest } =
      runSteps 2 { s with input := [.event (.iter ws r), .event .shutdown] ++ rest }

/-- R57, R36: taking the tokens of a half one step at a time is running their operations in order. -/
def Obligations.StepsRunTheTokensInOrder : Prop :=
  ∀ (ts rest : List Token) (s : State), s.runState = .running → ts.all Token.isHalf = true →
    runSteps ts.length { s with input := ts ++ rest } = runTokens ts { s with input := rest }

/-- R34, R198 (D9): from `Stopped` a step other than RESET leaves the run stopped, both halves as they were and makes no
effect; and where the invariant holds, so that a stopped run has seen a request (R197), it leaves all seven fields of the
block as they were. Which tokens a stopped step takes is the model's choice (notes/assumptions/10.md). -/
def Obligations.StoppedStaysStopped : Prop :=
  ∀ (s t : State), step s = .next t → s.runState = .stopped → s.input.head? ≠ some (.event .reset) →
    t.runState = .stopped ∧ t.outboundView = s.outboundView ∧ t.inboundView = s.inboundView ∧ t.trace = s.trace ∧
      (s.Inv → t.block = s.block)

/-- R199, R197: a running loop stops exactly when an iteration starts with a shutdown request. -/
def Obligations.LoopStopsOnlyOnShutdown : Prop :=
  ∀ (s t : State), step s = .next t → s.runState = .running →
    (t.runState = .stopped ↔
      s.shutdownReq = true ∧ (s.input = [] ∨ ∃ ws r, s.input.head? = some (.event (.iter ws r))))

/-- R35: only SHUTDOWN sets the flag, and nothing clears it but the start of a new run. -/
def Obligations.OnlyShutdownAndResetWriteTheFlag : Prop :=
  ∀ (s t : State), step s = .next t →
    (s.shutdownReq = true → s.input.head? ≠ some (.event .reset) → t.shutdownReq = true) ∧
    (s.shutdownReq = false → s.input.head? ≠ some (.event .shutdown) → t.shutdownReq = false)

/-- R200, R211: any number of iterations with an empty batch and a failed read leaves everything as it was. -/
def Obligations.FailedReadsChangeNothing : Prop :=
  ∀ (rs : List ReadResult) (s : State), s.runState = .running → s.shutdownReq = false → s.outQ = [] →
    (∀ r ∈ rs, r.status ≠ .success) →
    runTokens (rs.map fun r => Token.event (.iter [] r)) s = .next s

/-! ## The two halves -/

/-- R3: the operations of one half write none of the other half's state, none of the loop's, and produce none of the
other half's effects. -/
def Obligations.HalvesWriteOnlyTheirOwnState : Prop :=
  ∀ (i : Instr) (s t : State), exec i s = .next t →
    (isOutbound i.op = true → t.inboundView = s.inboundView ∧ t.loopView = s.loopView ∧
      t.input = s.input ∧ hostWords t.trace = hostWords s.trace ∧ t.tsDraws = s.tsDraws) ∧
    (isInbound i.op = true → t.outboundView = s.outboundView ∧ t.loopView = s.loopView ∧
      t.input = s.input ∧ writeCalls t.trace = writeCalls s.trace ∧
      t.writeDraws = s.writeDraws ∧ t.cellDraws = s.cellDraws)

/-- R3, R60: what an outbound operation leaves and writes depends on the outbound state alone (and on the model's count
of dead cell views, notes/assumptions/6.md). -/
def Obligations.OutboundReadsOnlyOutboundState : Prop :=
  ∀ (i : Instr) (s s' : State), isOutbound i.op = true → s.outboundView = s'.outboundView →
    s.cellDraws = s'.cellDraws →
    ∃ t t' calls, exec i s = .next t ∧ exec i s' = .next t' ∧ t.outboundView = t'.outboundView ∧
      writeCalls t.trace = writeCalls s.trace ++ calls ∧ writeCalls t'.trace = writeCalls s'.trace ++ calls

/-- R3, R60: what an inbound operation leaves and emits depends on the inbound state alone; a chunk is refused or taken
alike. -/
def Obligations.InboundReadsOnlyInboundState : Prop :=
  ∀ (i : Instr) (s s' : State), isInbound i.op = true → s.inboundView = s'.inboundView →
    (∃ e, exec i s = .refused e ∧ exec i s' = .refused e) ∨
    ∃ t t' ws, exec i s = .next t ∧ exec i s' = .next t' ∧ t.inboundView = t'.inboundView ∧
      hostWords t.trace = hostWords s.trace ++ ws ∧ hostWords t'.trace = hostWords s'.trace ++ ws

/-- R28, R32: no output and no other field depends on `in_mode`. -/
def Obligations.InModeIsReadByNothing : Prop :=
  ∀ (i : Instr) (m : Mode) (s : State),
    (∃ t m', exec i s = .next t ∧ exec i { s with inMode := m } = .next { t with inMode := m' }) ∨
    (∃ e, exec i s = .refused e ∧ exec i { s with inMode := m } = .refused e)

/-! ## Invariants -/

/-- R23, R24, R30, R197: every step from a state that meets the invariant gives a state that meets it. -/
def Obligations.StepKeepsTheInvariant : Prop :=
  ∀ (s t : State), s.Inv → step s = .next t → t.Inv

/-- R54, R74, R193: every step keeps all write calls whole, non-empty sequences of packets with a zero high nibble. -/
def Obligations.StepKeepsWritesFramed : Prop :=
  ∀ (s t : State), s.Framed → step s = .next t → t.Framed

/-- R25: when the inputs to come are whole events, every step leaves the packet queue empty. -/
def Obligations.StepLeavesTheQueueEmpty : Prop :=
  ∀ (s t : State), s.QueueDrained → step s = .next t → t.QueueDrained

/-- R56, R61: effects are made in order and never taken back. -/
def Obligations.StepOnlyAddsEffects : Prop :=
  ∀ (s t : State), step s = .next t → ∃ es, t.trace = s.trace ++ es

/-- The three invariants hold right after reset (R241). -/
def Obligations.ResetMeetsTheInvariants : Prop :=
  State.reset.Inv ∧ State.reset.Framed ∧ State.reset.QueueDrained
end

