-- ==== Sys2Proof/Laws/Operands.lean ====
section
/-! SUPPORT. The small lemmas of operand assembly: byte lanes, packet streams and the packets of the flushes. -/

namespace Sys2Proof.Machine

/-! ## Byte lanes -/

@[simp] theorem lane_packWord_zero (a b c d : Byte) : lane (packWord a b c d) 0 = a := by
  apply BitVec.eq_of_getLsbD_eq; intro i hi
  simp only [lane, packWord]
  interval_cases i <;> simp

@[simp] theorem lane_packWord_one (a b c d : Byte) : lane (packWord a b c d) 1 = b := by
  apply BitVec.eq_of_getLsbD_eq; intro i hi
  simp only [lane, packWord]
  interval_cases i <;> simp

@[simp] theorem lane_packWord_two (a b c d : Byte) : lane (packWord a b c d) 2 = c := by
  apply BitVec.eq_of_getLsbD_eq; intro i hi
  simp only [lane, packWord]
  interval_cases i <;> simp

@[simp] theorem lane_packWord_three (a b c d : Byte) : lane (packWord a b c d) 3 = d := by
  apply BitVec.eq_of_getLsbD_eq; intro i hi
  simp only [lane, packWord]
  interval_cases i <;> simp

@[simp] theorem lanes_packWord (a b c d : Byte) : lanes (packWord a b c d) = [a, b, c, d] := by
  simp [lanes]

/-- A word is the packing of its own lanes. -/
theorem packWord_lanes (w : Word) : packWord (lane w 0) (lane w 1) (lane w 2) (lane w 3) = w := by
  apply BitVec.eq_of_getLsbD_eq; intro i hi
  simp only [lane, packWord]
  interval_cases i <;> simp

/-- The event word is the packing with a zero fourth byte. -/
theorem eventWord_eq_packWord (b1 b2 b3 : Byte) : eventWord b1 b2 b3 = packWord b1 b2 b3 0 := by
  simp [eventWord, packWord]

/-- The packing is the concatenation of the bytes, the first lowest. -/
theorem packWord_eq_append (a b c d : Byte) : packWord a b c d = d ++ c ++ b ++ a := by
  apply BitVec.eq_of_getLsbD_eq; intro i hi
  simp only [packWord, BitVec.getLsbD_append]
  interval_cases i <;> simp

/-! ## Packet streams -/

@[simp] theorem packetBytes_append (ps qs : List Packet) :
    packetBytes (ps ++ qs) = packetBytes ps ++ packetBytes qs := by
  induction ps with
  | nil => rfl
  | cons p ps ih => simp [packetBytes, ih]

@[simp] theorem length_packetBytes (ps : List Packet) : (packetBytes ps).length = 4 * ps.length := by
  induction ps with
  | nil => rfl
  | cons p ps ih => simp [packetBytes, bytesOfPacket, ih]; omega

/-- Reading a stream of packets gives the packets back. -/
@[simp] theorem packetsOf_packetBytes (ps : List Packet) : packetsOf (packetBytes ps) = ps := by
  induction ps with
  | nil => rfl
  | cons p ps ih => simp [packetBytes, bytesOfPacket, packetsOf, ih]

/-! ## The packets of the flushes -/

@[simp] theorem length_terminalPackets (buf : List Byte) :
    (terminalPackets buf).length = terminalCount buf.length := by
  simp [terminalPackets]

@[simp] theorem length_forcedPackets (p : Params) (n : Nat) (buf : List Byte) :
    (forcedPackets p n buf).length = p.outSysexMax / 3 := by
  simp [forcedPackets]

/-- A cell within the length is the buffer's own. -/
theorem cell_of_lt {n i : Nat} {buf : List Byte} (h : i < buf.length) : cell n buf i = buf[i] := by
  simp [cell, h]

/-- A cell beyond the length is any value. -/
theorem cell_of_le {n i : Nat} {buf : List Byte} (h : buf.length ≤ i) : cell n buf i = Config.deadCell n i := by
  simp [cell, h]

end Sys2Proof.Machine
end

