-- ==== Sys2Proof/Laws/State.lean ====
section
/-! SUPPORT. One lemma per field and update of the state: what each named update leaves in each field. -/

namespace Sys2Proof.Machine

/-! ## openOutMode -/

@[simp] theorem openOutMode_outMode (s : State) : (openOutMode s).outMode = .accumulating := rfl
@[simp] theorem openOutMode_outBuf (s : State) : (openOutMode s).outBuf = s.outBuf := rfl
@[simp] theorem openOutMode_outQ (s : State) : (openOutMode s).outQ = s.outQ := rfl
@[simp] theorem openOutMode_inMode (s : State) : (openOutMode s).inMode = s.inMode := rfl
@[simp] theorem openOutMode_inBuf (s : State) : (openOutMode s).inBuf = s.inBuf := rfl
@[simp] theorem openOutMode_runState (s : State) : (openOutMode s).runState = s.runState := rfl
@[simp] theorem openOutMode_shutdownReq (s : State) : (openOutMode s).shutdownReq = s.shutdownReq := rfl
@[simp] theorem openOutMode_input (s : State) : (openOutMode s).input = s.input := rfl
@[simp] theorem openOutMode_trace (s : State) : (openOutMode s).trace = s.trace := rfl
@[simp] theorem openOutMode_tsDraws (s : State) : (openOutMode s).tsDraws = s.tsDraws := rfl
@[simp] theorem openOutMode_writeDraws (s : State) : (openOutMode s).writeDraws = s.writeDraws := rfl
@[simp] theorem openOutMode_cellDraws (s : State) : (openOutMode s).cellDraws = s.cellDraws := rfl

/-! ## closeOutMode -/

@[simp] theorem closeOutMode_outMode (s : State) : (closeOutMode s).outMode = .idle := rfl
@[simp] theorem closeOutMode_outBuf (s : State) : (closeOutMode s).outBuf = s.outBuf := rfl
@[simp] theorem closeOutMode_outQ (s : State) : (closeOutMode s).outQ = s.outQ := rfl
@[simp] theorem closeOutMode_inMode (s : State) : (closeOutMode s).inMode = s.inMode := rfl
@[simp] theorem closeOutMode_inBuf (s : State) : (closeOutMode s).inBuf = s.inBuf := rfl
@[simp] theorem closeOutMode_runState (s : State) : (closeOutMode s).runState = s.runState := rfl
@[simp] theorem closeOutMode_shutdownReq (s : State) : (closeOutMode s).shutdownReq = s.shutdownReq := rfl
@[simp] theorem closeOutMode_input (s : State) : (closeOutMode s).input = s.input := rfl
@[simp] theorem closeOutMode_trace (s : State) : (closeOutMode s).trace = s.trace := rfl
@[simp] theorem closeOutMode_tsDraws (s : State) : (closeOutMode s).tsDraws = s.tsDraws := rfl
@[simp] theorem closeOutMode_writeDraws (s : State) : (closeOutMode s).writeDraws = s.writeDraws := rfl
@[simp] theorem closeOutMode_cellDraws (s : State) : (closeOutMode s).cellDraws = s.cellDraws := rfl

/-! ## writeInMode -/

@[simp] theorem writeInMode_outMode (m : Mode) (s : State) : (writeInMode m s).outMode = s.outMode := rfl
@[simp] theorem writeInMode_outBuf (m : Mode) (s : State) : (writeInMode m s).outBuf = s.outBuf := rfl
@[simp] theorem writeInMode_outQ (m : Mode) (s : State) : (writeInMode m s).outQ = s.outQ := rfl
@[simp] theorem writeInMode_inMode (m : Mode) (s : State) : (writeInMode m s).inMode = m := rfl
@[simp] theorem writeInMode_inBuf (m : Mode) (s : State) : (writeInMode m s).inBuf = s.inBuf := rfl
@[simp] theorem writeInMode_runState (m : Mode) (s : State) : (writeInMode m s).runState = s.runState := rfl
@[simp] theorem writeInMode_shutdownReq (m : Mode) (s : State) : (writeInMode m s).shutdownReq = s.shutdownReq := rfl
@[simp] theorem writeInMode_input (m : Mode) (s : State) : (writeInMode m s).input = s.input := rfl
@[simp] theorem writeInMode_trace (m : Mode) (s : State) : (writeInMode m s).trace = s.trace := rfl
@[simp] theorem writeInMode_tsDraws (m : Mode) (s : State) : (writeInMode m s).tsDraws = s.tsDraws := rfl
@[simp] theorem writeInMode_writeDraws (m : Mode) (s : State) : (writeInMode m s).writeDraws = s.writeDraws := rfl
@[simp] theorem writeInMode_cellDraws (m : Mode) (s : State) : (writeInMode m s).cellDraws = s.cellDraws := rfl

/-! ## raiseShutdown -/

@[simp] theorem raiseShutdown_outMode (s : State) : (raiseShutdown s).outMode = s.outMode := rfl
@[simp] theorem raiseShutdown_outBuf (s : State) : (raiseShutdown s).outBuf = s.outBuf := rfl
@[simp] theorem raiseShutdown_outQ (s : State) : (raiseShutdown s).outQ = s.outQ := rfl
@[simp] theorem raiseShutdown_inMode (s : State) : (raiseShutdown s).inMode = s.inMode := rfl
@[simp] theorem raiseShutdown_inBuf (s : State) : (raiseShutdown s).inBuf = s.inBuf := rfl
@[simp] theorem raiseShutdown_runState (s : State) : (raiseShutdown s).runState = s.runState := rfl
@[simp] theorem raiseShutdown_shutdownReq (s : State) : (raiseShutdown s).shutdownReq = true := rfl
@[simp] theorem raiseShutdown_input (s : State) : (raiseShutdown s).input = s.input := rfl
@[simp] theorem raiseShutdown_trace (s : State) : (raiseShutdown s).trace = s.trace := rfl
@[simp] theorem raiseShutdown_tsDraws (s : State) : (raiseShutdown s).tsDraws = s.tsDraws := rfl
@[simp] theorem raiseShutdown_writeDraws (s : State) : (raiseShutdown s).writeDraws = s.writeDraws := rfl
@[simp] theorem raiseShutdown_cellDraws (s : State) : (raiseShutdown s).cellDraws = s.cellDraws := rfl

/-! ## stopRun -/

@[simp] theorem stopRun_outMode (s : State) : (stopRun s).outMode = s.outMode := rfl
@[simp] theorem stopRun_outBuf (s : State) : (stopRun s).outBuf = s.outBuf := rfl
@[simp] theorem stopRun_outQ (s : State) : (stopRun s).outQ = s.outQ := rfl
@[simp] theorem stopRun_inMode (s : State) : (stopRun s).inMode = s.inMode := rfl
@[simp] theorem stopRun_inBuf (s : State) : (stopRun s).inBuf = s.inBuf := rfl
@[simp] theorem stopRun_runState (s : State) : (stopRun s).runState = .stopped := rfl
@[simp] theorem stopRun_shutdownReq (s : State) : (stopRun s).shutdownReq = s.shutdownReq := rfl
@[simp] theorem stopRun_input (s : State) : (stopRun s).input = s.input := rfl
@[simp] theorem stopRun_trace (s : State) : (stopRun s).trace = s.trace := rfl
@[simp] theorem stopRun_tsDraws (s : State) : (stopRun s).tsDraws = s.tsDraws := rfl
@[simp] theorem stopRun_writeDraws (s : State) : (stopRun s).writeDraws = s.writeDraws := rfl
@[simp] theorem stopRun_cellDraws (s : State) : (stopRun s).cellDraws = s.cellDraws := rfl

/-! ## queuePackets -/

@[simp] theorem queuePackets_outMode (ps : List Packet) (s : State) : (queuePackets ps s).outMode = s.outMode := rfl
@[simp] theorem queuePackets_outBuf (ps : List Packet) (s : State) : (queuePackets ps s).outBuf = s.outBuf := rfl
@[simp] theorem queuePackets_outQ (ps : List Packet) (s : State) : (queuePackets ps s).outQ = s.outQ ++ ps := rfl
@[simp] theorem queuePackets_inMode (ps : List Packet) (s : State) : (queuePackets ps s).inMode = s.inMode := rfl
@[simp] theorem queuePackets_inBuf (ps : List Packet) (s : State) : (queuePackets ps s).inBuf = s.inBuf := rfl
@[simp] theorem queuePackets_runState (ps : List Packet) (s : State) :
    (queuePackets ps s).runState = s.runState := rfl
@[simp] theorem queuePackets_shutdownReq (ps : List Packet) (s : State) :
    (queuePackets ps s).shutdownReq = s.shutdownReq := rfl
@[simp] theorem queuePackets_input (ps : List Packet) (s : State) : (queuePackets ps s).input = s.input := rfl
@[simp] theorem queuePackets_trace (ps : List Packet) (s : State) : (queuePackets ps s).trace = s.trace := rfl
@[simp] theorem queuePackets_tsDraws (ps : List Packet) (s : State) : (queuePackets ps s).tsDraws = s.tsDraws := rfl
@[simp] theorem queuePackets_writeDraws (ps : List Packet) (s : State) :
    (queuePackets ps s).writeDraws = s.writeDraws := rfl
@[simp] theorem queuePackets_cellDraws (ps : List Packet) (s : State) :
    (queuePackets ps s).cellDraws = s.cellDraws := rfl

/-! ## transportWrite -/

@[simp] theorem transportWrite_outMode (bs : List Byte) (r : WriteResult) (s : State) :
    (transportWrite bs r s).outMode = s.outMode := rfl
@[simp] theorem transportWrite_outBuf (bs : List Byte) (r : WriteResult) (s : State) :
    (transportWrite bs r s).outBuf = s.outBuf := rfl
@[simp] theorem transportWrite_outQ (bs : List Byte) (r : WriteResult) (s : State) :
    (transportWrite bs r s).outQ = s.outQ := rfl
@[simp] theorem transportWrite_inMode (bs : List Byte) (r : WriteResult) (s : State) :
    (transportWrite bs r s).inMode = s.inMode := rfl
@[simp] theorem transportWrite_inBuf (bs : List Byte) (r : WriteResult) (s : State) :
    (transportWrite bs r s).inBuf = s.inBuf := rfl
@[simp] theorem transportWrite_runState (bs : List Byte) (r : WriteResult) (s : State) :
    (transportWrite bs r s).runState = s.runState := rfl
@[simp] theorem transportWrite_shutdownReq (bs : List Byte) (r : WriteResult) (s : State) :
    (transportWrite bs r s).shutdownReq = s.shutdownReq := rfl
@[simp] theorem transportWrite_input (bs : List Byte) (r : WriteResult) (s : State) :
    (transportWrite bs r s).input = s.input := rfl
@[simp] theorem transportWrite_trace (bs : List Byte) (r : WriteResult) (s : State) :
    (transportWrite bs r s).trace = s.trace ++ [.transportWrite bs (r.within bs.length)] := rfl
@[simp] theorem transportWrite_tsDraws (bs : List Byte) (r : WriteResult) (s : State) :
    (transportWrite bs r s).tsDraws = s.tsDraws := rfl
@[simp] theorem transportWrite_writeDraws (bs : List Byte) (r : WriteResult) (s : State) :
    (transportWrite bs r s).writeDraws = s.writeDraws + 1 := rfl
@[simp] theorem transportWrite_cellDraws (bs : List Byte) (r : WriteResult) (s : State) :
    (transportWrite bs r s).cellDraws = s.cellDraws := rfl

/-! ## appendOut -/

@[simp] theorem appendOut_outMode (b : Byte) (s : State) : (appendOut b s).outMode = s.outMode := rfl
@[simp] theorem appendOut_outBuf (b : Byte) (s : State) : (appendOut b s).outBuf = s.outBuf ++ [b] := rfl
@[simp] theorem appendOut_outQ (b : Byte) (s : State) : (appendOut b s).outQ = s.outQ := rfl
@[simp] theorem appendOut_inMode (b : Byte) (s : State) : (appendOut b s).inMode = s.inMode := rfl
@[simp] theorem appendOut_inBuf (b : Byte) (s : State) : (appendOut b s).inBuf = s.inBuf := rfl
@[simp] theorem appendOut_runState (b : Byte) (s : State) : (appendOut b s).runState = s.runState := rfl
@[simp] theorem appendOut_shutdownReq (b : Byte) (s : State) : (appendOut b s).shutdownReq = s.shutdownReq := rfl
@[simp] theorem appendOut_input (b : Byte) (s : State) : (appendOut b s).input = s.input := rfl
@[simp] theorem appendOut_trace (b : Byte) (s : State) : (appendOut b s).trace = s.trace := rfl
@[simp] theorem appendOut_tsDraws (b : Byte) (s : State) : (appendOut b s).tsDraws = s.tsDraws := rfl
@[simp] theorem appendOut_writeDraws (b : Byte) (s : State) : (appendOut b s).writeDraws = s.writeDraws := rfl
@[simp] theorem appendOut_cellDraws (b : Byte) (s : State) : (appendOut b s).cellDraws = s.cellDraws := rfl

/-! ## clearOut -/

@[simp] theorem clearOut_outMode (s : State) : (clearOut s).outMode = s.outMode := rfl
@[simp] theorem clearOut_outBuf (s : State) : (clearOut s).outBuf = [] := rfl
@[simp] theorem clearOut_outQ (s : State) : (clearOut s).outQ = s.outQ := rfl
@[simp] theorem clearOut_inMode (s : State) : (clearOut s).inMode = s.inMode := rfl
@[simp] theorem clearOut_inBuf (s : State) : (clearOut s).inBuf = s.inBuf := rfl
@[simp] theorem clearOut_runState (s : State) : (clearOut s).runState = s.runState := rfl
@[simp] theorem clearOut_shutdownReq (s : State) : (clearOut s).shutdownReq = s.shutdownReq := rfl
@[simp] theorem clearOut_input (s : State) : (clearOut s).input = s.input := rfl
@[simp] theorem clearOut_trace (s : State) : (clearOut s).trace = s.trace := rfl
@[simp] theorem clearOut_tsDraws (s : State) : (clearOut s).tsDraws = s.tsDraws := rfl
@[simp] theorem clearOut_writeDraws (s : State) : (clearOut s).writeDraws = s.writeDraws := rfl
@[simp] theorem clearOut_cellDraws (s : State) : (clearOut s).cellDraws = s.cellDraws := rfl

/-! ## emitHost -/

@[simp] theorem emitHost_outMode (w : Word) (s : State) : (emitHost w s).outMode = s.outMode := rfl
@[simp] theorem emitHost_outBuf (w : Word) (s : State) : (emitHost w s).outBuf = s.outBuf := rfl
@[simp] theorem emitHost_outQ (w : Word) (s : State) : (emitHost w s).outQ = s.outQ := rfl
@[simp] theorem emitHost_inMode (w : Word) (s : State) : (emitHost w s).inMode = s.inMode := rfl
@[simp] theorem emitHost_inBuf (w : Word) (s : State) : (emitHost w s).inBuf = s.inBuf := rfl
@[simp] theorem emitHost_runState (w : Word) (s : State) : (emitHost w s).runState = s.runState := rfl
@[simp] theorem emitHost_shutdownReq (w : Word) (s : State) : (emitHost w s).shutdownReq = s.shutdownReq := rfl
@[simp] theorem emitHost_input (w : Word) (s : State) : (emitHost w s).input = s.input := rfl
@[simp] theorem emitHost_trace (w : Word) (s : State) :
    (emitHost w s).trace = s.trace ++ [.hostWrite (Config.timestamp s.tsDraws) w] := rfl
@[simp] theorem emitHost_tsDraws (w : Word) (s : State) : (emitHost w s).tsDraws = s.tsDraws + 1 := rfl
@[simp] theorem emitHost_writeDraws (w : Word) (s : State) : (emitHost w s).writeDraws = s.writeDraws := rfl
@[simp] theorem emitHost_cellDraws (w : Word) (s : State) : (emitHost w s).cellDraws = s.cellDraws := rfl

/-! ## inAppend -/

@[simp] theorem inAppend_outMode (b : Byte) (s : State) : (inAppend b s).outMode = s.outMode := rfl
@[simp] theorem inAppend_outBuf (b : Byte) (s : State) : (inAppend b s).outBuf = s.outBuf := rfl
@[simp] theorem inAppend_outQ (b : Byte) (s : State) : (inAppend b s).outQ = s.outQ := rfl
@[simp] theorem inAppend_inMode (b : Byte) (s : State) : (inAppend b s).inMode = s.inMode := rfl
@[simp] theorem inAppend_inBuf (b : Byte) (s : State) : (inAppend b s).inBuf = s.inBuf ++ [b] := rfl
@[simp] theorem inAppend_runState (b : Byte) (s : State) : (inAppend b s).runState = s.runState := rfl
@[simp] theorem inAppend_shutdownReq (b : Byte) (s : State) : (inAppend b s).shutdownReq = s.shutdownReq := rfl
@[simp] theorem inAppend_input (b : Byte) (s : State) : (inAppend b s).input = s.input := rfl
@[simp] theorem inAppend_trace (b : Byte) (s : State) : (inAppend b s).trace = s.trace := rfl
@[simp] theorem inAppend_tsDraws (b : Byte) (s : State) : (inAppend b s).tsDraws = s.tsDraws := rfl
@[simp] theorem inAppend_writeDraws (b : Byte) (s : State) : (inAppend b s).writeDraws = s.writeDraws := rfl
@[simp] theorem inAppend_cellDraws (b : Byte) (s : State) : (inAppend b s).cellDraws = s.cellDraws := rfl

/-! ## clearIn -/

@[simp] theorem clearIn_outMode (s : State) : (clearIn s).outMode = s.outMode := rfl
@[simp] theorem clearIn_outBuf (s : State) : (clearIn s).outBuf = s.outBuf := rfl
@[simp] theorem clearIn_outQ (s : State) : (clearIn s).outQ = s.outQ := rfl
@[simp] theorem clearIn_inMode (s : State) : (clearIn s).inMode = s.inMode := rfl
@[simp] theorem clearIn_inBuf (s : State) : (clearIn s).inBuf = [] := rfl
@[simp] theorem clearIn_runState (s : State) : (clearIn s).runState = s.runState := rfl
@[simp] theorem clearIn_shutdownReq (s : State) : (clearIn s).shutdownReq = s.shutdownReq := rfl
@[simp] theorem clearIn_input (s : State) : (clearIn s).input = s.input := rfl
@[simp] theorem clearIn_trace (s : State) : (clearIn s).trace = s.trace := rfl
@[simp] theorem clearIn_tsDraws (s : State) : (clearIn s).tsDraws = s.tsDraws := rfl
@[simp] theorem clearIn_writeDraws (s : State) : (clearIn s).writeDraws = s.writeDraws := rfl
@[simp] theorem clearIn_cellDraws (s : State) : (clearIn s).cellDraws = s.cellDraws := rfl

/-! ## restart -/

@[simp] theorem restart_outMode (s : State) : (restart s).outMode = .idle := rfl
@[simp] theorem restart_outBuf (s : State) : (restart s).outBuf = [] := rfl
@[simp] theorem restart_outQ (s : State) : (restart s).outQ = [] := rfl
@[simp] theorem restart_inMode (s : State) : (restart s).inMode = .idle := rfl
@[simp] theorem restart_inBuf (s : State) : (restart s).inBuf = [] := rfl
@[simp] theorem restart_runState (s : State) : (restart s).runState = .running := rfl
@[simp] theorem restart_shutdownReq (s : State) : (restart s).shutdownReq = false := rfl
@[simp] theorem restart_input (s : State) : (restart s).input = s.input := rfl
@[simp] theorem restart_trace (s : State) : (restart s).trace = s.trace := rfl
@[simp] theorem restart_tsDraws (s : State) : (restart s).tsDraws = s.tsDraws := rfl
@[simp] theorem restart_writeDraws (s : State) : (restart s).writeDraws = s.writeDraws := rfl
@[simp] theorem restart_cellDraws (s : State) : (restart s).cellDraws = s.cellDraws := rfl

end Sys2Proof.Machine
end

