-- ==== Sys2Proof/Laws/Ops.lean ====
section
/-! SUPPORT. One lemma for each shared operation that says everything it can do, to be cited instead of unfolding it. -/

namespace Sys2Proof.Machine

variable {p : Params} {s : State}

/-! ## Outbound -/

/-- WriteQueue: nothing queued and nothing done, or one call with everything queued. -/
theorem writeQueue_spec (s : State) :
    (s.outQ = [] ∧ writeQueue s = s) ∨
    (s.outQ ≠ [] ∧ writeQueue s = { s with
      outQ := []
      trace := s.trace ++
        [.transportWrite (packetBytes s.outQ) ((Config.writeResult s.writeDraws).within (packetBytes s.outQ).length)]
      writeDraws := s.writeDraws + 1 }) := by
  by_cases h : s.outQ = []
  · exact .inl ⟨h, by simp [writeQueue, h]⟩
  · exact .inr ⟨h, by simp [writeQueue, h, transportWrite]⟩

@[simp] theorem writeQueue_outQ (s : State) : (writeQueue s).outQ = [] := by
  rcases writeQueue_spec s with ⟨h, e⟩ | ⟨-, e⟩ <;> simp [*]

@[simp] theorem endFlush_perBatch (h : p.writeGrouping = .perBatch) (s : State) : endFlush p s = s := by
  simp [endFlush, h]

@[simp] theorem endFlush_perFlush (h : p.writeGrouping = .perFlush) (s : State) : endFlush p s = writeQueue s := by
  simp [endFlush, h]

@[simp] theorem endFlush_hardware (s : State) : endFlush hardware s = s := rfl

/-- FLUSH_TERMINAL: nothing for an empty buffer, else the buffer's packets are queued and the flush ends. -/
theorem flushTerminal_spec (p : Params) (s : State) :
    (s.outBuf = [] ∧ flushTerminal p s = s) ∨
    (s.outBuf ≠ [] ∧ flushTerminal p s =
      endFlush p { s with outBuf := [], outQ := s.outQ ++ terminalPackets s.outBuf }) := by
  by_cases h : s.outBuf = []
  · exact .inl ⟨h, by simp [flushTerminal, h]⟩
  · exact .inr ⟨h, by simp [flushTerminal, h, queuePackets, clearOut]⟩

/-- FLUSH_FORCED: nothing for an empty buffer, else full triples are queued, and dead cells are counted as viewed only
when the buffer is short. -/
theorem flushForced_spec (p : Params) (s : State) :
    (s.outBuf = [] ∧ flushForced p s = s) ∨
    (s.outBuf ≠ [] ∧ flushForced p s = endFlush p { s with
      outBuf := [], outQ := s.outQ ++ forcedPackets p s.cellDraws s.outBuf
      cellDraws := if s.outBuf.length < p.outSysexMax then s.cellDraws + 1 else s.cellDraws }) := by
  by_cases h : s.outBuf = []
  · exact .inl ⟨h, by simp [flushForced, h]⟩
  · refine .inr ⟨h, ?_⟩
    by_cases hl : s.outBuf.length < p.outSysexMax <;>
      simp [flushForced, h, queuePackets, clearOut, viewDeadCells, hl]

/-- BYTE_DATA: an append, with a forced flush exactly when the length reaches the maximum. -/
theorem byteData_spec (p : Params) (b : Byte) (s : State) :
    (s.outBuf.length + 1 ≠ p.outSysexMax ∧ byteData p b s = { s with outBuf := s.outBuf ++ [b] }) ∨
    (s.outBuf.length + 1 = p.outSysexMax ∧ byteData p b s = endFlush p { s with
      outBuf := [], outQ := s.outQ ++ forcedPackets p s.cellDraws (s.outBuf ++ [b]) }) := by
  by_cases h : s.outBuf.length + 1 = p.outSysexMax
  · refine .inr ⟨h, ?_⟩
    rcases flushForced_spec p (appendOut b s) with ⟨e, -⟩ | ⟨-, e⟩
    · simp at e
    · simp [byteData, h, e]
  · exact .inl ⟨h, by simp [byteData, h, appendOut]⟩

/-- BYTE_TERM: the buffer with its terminator is framed, the buffer is empty and the mode is `Idle`. -/
theorem byteTerm_spec (p : Params) (b : Byte) (s : State) :
    byteTerm p b s = closeOutMode (endFlush p { s with
      outBuf := [], outQ := s.outQ ++ terminalPackets (s.outBuf ++ [b]) }) := by
  rcases flushTerminal_spec p (appendOut b s) with ⟨e, -⟩ | ⟨-, e⟩
  · simp at e
  · simp [byteTerm, e]

/-- BYTE_OPEN by the opener parameter. -/
theorem byteOpen_spec (p : Params) (s : State) :
    (p.openerInBuffer = true ∧ byteOpen p s = byteData p opener { s with outMode := .accumulating }) ∨
    (p.openerInBuffer = false ∧ byteOpen p s = { s with outMode := .accumulating }) := by
  cases h : p.openerInBuffer <;> simp [byteOpen, h, openOutMode]

/-- OutByte: one of the four byte operations, by the mode and the byte. -/
theorem outByte_spec (p : Params) (b : Byte) (s : State) :
    (s.outMode = .idle ∧ b = opener ∧ outByte p b s = byteOpen p s) ∨
    (s.outMode = .idle ∧ b ≠ opener ∧ outByte p b s = s) ∨
    (s.outMode = .accumulating ∧ isTerminator b = true ∧ outByte p b s = byteTerm p b s) ∨
    (s.outMode = .accumulating ∧ isTerminator b = false ∧ outByte p b s = byteData p b s) := by
  unfold outByte
  cases s.outMode
  · by_cases h : b = opener <;> simp [h, byteSkip]
  · cases h : isTerminator b <;> simp

theorem outBytes_append (p : Params) (as bs : List Byte) (s : State) :
    outBytes p (as ++ bs) s = outBytes p bs (outBytes p as s) := by
  induction as generalizing s with
  | nil => rfl
  | cons a as ih => exact ih _

/-- OutEvent: the channel path exactly when the word starts in `Idle` with another status than 0xF0. -/
theorem outEvent_spec (p : Params) (w : Word) (s : State) :
    (s.outMode = .idle ∧ lane w 0 ≠ opener ∧ outEvent p w s = outChannel w s) ∨
    (¬(s.outMode = .idle ∧ lane w 0 ≠ opener) ∧ outEvent p w s = outBytes p (lanes w) s) := by
  by_cases h : s.outMode = .idle ∧ lane w 0 ≠ opener
  · exact .inl ⟨h.1, h.2, by simp [outEvent, h]⟩
  · exact .inr ⟨h, by simp only [outEvent, if_neg h, outSysexWord]⟩

theorem outEvents_append (p : Params) (as bs : List Word) (s : State) :
    outEvents p (as ++ bs) s = outEvents p bs (outEvents p as s) := by
  induction as generalizing s with
  | nil => rfl
  | cons a as ih => exact ih _

/-! ## Inbound -/

/-- IN_FLUSH: nothing for an empty buffer, else one word and an empty buffer. -/
theorem inFlush_spec (s : State) :
    (s.inBuf = [] ∧ inFlush s = s) ∨
    (s.inBuf ≠ [] ∧ inFlush s = { s with
      inBuf := []
      trace := s.trace ++ [.hostWrite (Config.timestamp s.tsDraws) (groupWord s.inBuf)]
      tsDraws := s.tsDraws + 1 }) := by
  by_cases h : s.inBuf = []
  · exact .inl ⟨h, by simp [inFlush, h]⟩
  · exact .inr ⟨h, by simp [inFlush, h, emitHost, clearIn]⟩

/-- InAppendCheck: an append, with a group flush exactly when the length reaches 4. -/
theorem inAppendCheck_spec (b : Byte) (s : State) :
    (s.inBuf.length ≠ 3 ∧ inAppendCheck b s = { s with inBuf := s.inBuf ++ [b] }) ∨
    (s.inBuf.length = 3 ∧ inAppendCheck b s = { s with
      inBuf := []
      trace := s.trace ++ [.hostWrite (Config.timestamp s.tsDraws) (groupWord (s.inBuf ++ [b]))]
      tsDraws := s.tsDraws + 1 }) := by
  by_cases h : s.inBuf.length = 3
  · refine .inr ⟨h, ?_⟩
    rcases inFlush_spec (inAppend b s) with ⟨e, -⟩ | ⟨-, e⟩
    · simp at e
    · simp [inAppendCheck, h, Config.inGroup, e]
  · exact .inl ⟨h, by simp [inAppendCheck, h, Config.inGroup, inAppend]⟩

/-- InPacket: a continuation, a terminal packet or an event, by the control byte. -/
theorem inPacket_spec (pkt : Packet) (s : State) :
    (pkt.p0 = 0x04 ∧ inPacket pkt s = inSysexCont pkt.p1 pkt.p2 pkt.p3 s) ∨
    ((pkt.p0 = 0x05 ∨ pkt.p0 = 0x06 ∨ pkt.p0 = 0x07) ∧ inPacket pkt s = inSysexEnd pkt.p1 pkt.p2 pkt.p3 s) ∨
    (isSysexControl pkt.p0 = false ∧ inPacket pkt s = inEvent pkt.p1 pkt.p2 pkt.p3 s) := by
  unfold inPacket isSysexControl
  by_cases h4 : pkt.p0 = 0x04
  · simp [h4]
  by_cases h5 : pkt.p0 = 0x05
  · simp [h5]
  by_cases h6 : pkt.p0 = 0x06
  · simp [h6]
  by_cases h7 : pkt.p0 = 0x07
  · simp [h7]
  · simp_all

theorem inPackets_append (ps qs : List Packet) (s : State) :
    inPackets (ps ++ qs) s = inPackets qs (inPackets ps s) := by
  induction ps generalizing s with
  | nil => rfl
  | cons p ps ih => exact ih _

/-- CHUNK: what it answers, in the order of its tests. -/
theorem chunk_spec (p : Params) (r : ReadResult) (s : State) :
    (r.status ≠ .success ∧ chunk p r s = .next s) ∨
    (r.status = .success ∧ p.maxChunkBytes < r.bytes.length ∧ chunk p r s = .refused .chunkTooLong) ∨
    (r.status = .success ∧ r.bytes.length ≤ p.maxChunkBytes ∧ r.bytes.length % 4 ≠ 0 ∧
      chunk p r s = .refused .partialPacket) ∨
    (r.status = .success ∧ r.bytes.length ≤ p.maxChunkBytes ∧ r.bytes.length % 4 = 0 ∧
      chunk p r s = .next (inPackets (packetsOf r.bytes) s)) := by
  unfold chunk
  by_cases h1 : r.status = .success
  · by_cases h2 : p.maxChunkBytes < r.bytes.length
    · simp [h1, h2]
    · by_cases h3 : r.bytes.length % 4 = 0 <;> simp [h1, h2, h3, Config.pktBytes, not_lt.mp h2]
  · simp [h1]

/-! ## The polling loop -/

/-- ITERATE: refused, stopping, or the batch and then the chunk. -/
theorem iterate_spec (p : Params) (ws : List Word) (r : ReadResult) (s : State) :
    (s.runState = .stopped ∧ iterate p ws r s = .refused .afterStop) ∨
    (s.runState = .running ∧ s.shutdownReq = true ∧ iterate p ws r s = .next { s with runState := .stopped }) ∨
    (s.runState = .running ∧ s.shutdownReq = false ∧ iterate p ws r s = chunk p r (outBatch p ws s)) := by
  unfold iterate
  cases s.runState <;> cases h : s.shutdownReq <;> simp [stopRun, h]

end Sys2Proof.Machine
end

