-- ==== Sys2Proof/Laws/PerInstr.lean ====
section
/-! SUPPORT. Statements about every instruction as syntax, one lemma per constructor: the encoded length is the fixed
length of the instruction's format (spec/30_encoding.md rule R70). -/

namespace Sys2Proof.Laws.EncodedLength

/-- The bytes of an instruction are as many as its format fixes. -/
def Statement (i : Instr) : Prop :=
  (encodeBytes i).length = i.op.format.length

theorem inSysexCont (b1 b2 b3 : Byte) : Statement (.inSysexCont b1 b2 b3) := rfl
theorem inSysexEnd1 (b1 b2 b3 : Byte) : Statement (.inSysexEnd1 b1 b2 b3) := rfl
theorem inSysexEnd2 (b1 b2 b3 : Byte) : Statement (.inSysexEnd2 b1 b2 b3) := rfl
theorem inSysexEnd3 (b1 b2 b3 : Byte) : Statement (.inSysexEnd3 b1 b2 b3) := rfl
theorem inEvent (cb b1 b2 b3 : Byte) : Statement (.inEvent cb b1 b2 b3) := rfl
theorem outSysexWord (w : Word) : Statement (.outSysexWord w) := rfl
theorem outChannel (w : Word) : Statement (.outChannel w) := rfl
theorem byteOpen : Statement .byteOpen := rfl
theorem byteSkip (b : Byte) : Statement (.byteSkip b) := rfl
theorem byteData (b : Byte) : Statement (.byteData b) := rfl
theorem byteTerm (b : Byte) : Statement (.byteTerm b) := rfl
theorem batchEnd : Statement .batchEnd := rfl
theorem chunk (r : ReadResult) : Statement (.chunk r) := rfl
theorem iterate (ws : List Word) (r : ReadResult) : Statement (.iterate ws r) := rfl
theorem shutdown : Statement .shutdown := rfl
theorem reset : Statement .reset := rfl
theorem flushForced : Statement .flushForced := rfl
theorem flushTerminal : Statement .flushTerminal := rfl
theorem inFlush : Statement .inFlush := rfl
theorem outBatch (ws : List Word) : Statement (.outBatch ws) := rfl

end Sys2Proof.Laws.EncodedLength
end

