-- ==== Sys2Proof/Laws/Step.lean ====
section
/-! SUPPORT. What one step can do, and the small lemmas of running several operations and of the observations. -/

namespace Sys2Proof.Machine

/-- A step answers a next state only by taking a token, or an idle iteration when none is left, and running its
operation. -/
theorem step_next_cases {s t : State} (h : step s = .next t) :
    (s.input = [] ∧ s.runState = .running ∧ exec (.iterate [] ReadResult.timedOut) s = .next t) ∨
    (∃ tok rest, s.input = tok :: rest ∧ (s.runState = .running ∨ takenAlways tok = true) ∧
      exec (decode s.outMode tok) { s with input := rest } = .next t) := by
  cases hi : s.input with
  | nil =>
    refine .inl ⟨rfl, ?_⟩
    simp only [step, fetch, hi, stepToken] at h
    split at h
    · rename_i hc
      simp [canTake, takenAlways, idleIteration] at hc
      exact ⟨hc, h⟩
    · cases h
  | cons tok rest =>
    refine .inr ⟨tok, rest, rfl, ?_⟩
    simp only [step, fetch, hi, stepToken] at h
    split at h
    · rename_i hc
      simp [canTake] at hc
      exact ⟨hc, h⟩
    · cases h

/-- A step with a token at the head that may be taken runs that token's operation past it. -/
theorem step_of_input_cons {s : State} {tok : Token} {rest : List Token} (hi : s.input = tok :: rest)
    (h : s.runState = .running ∨ takenAlways tok = true) :
    step s = exec (decode s.outMode tok) { s with input := rest } := by
  simp only [step, fetch, hi, stepToken]
  exact if_pos (by simpa [canTake] using h)

@[simp] theorem mem_batchParts {ws : List Word} {ts : List Token} :
    ts ∈ batchParts ws ↔ ts = [.event (.batch ws)] ∨ ts = ws.map Token.word ++ [.event .batchEnd] := by
  simp [batchParts]

/-- The tokens of a read: the read whole, nothing for a failed read, or the packets of an admitted one. -/
theorem mem_readParts {r : ReadResult} {ts : List Token} :
    ts ∈ readParts r ↔ ts = [.event (.chunk r)] ∨ (r.status ≠ .success ∧ ts = []) ∨
      (r.status = .success ∧ r.bytes.length ≤ hardware.maxChunkBytes ∧ r.bytes.length % 4 = 0 ∧
        ts = (packetsOf r.bytes).map Token.packet) := by
  unfold readParts
  by_cases h : r.status = .success
  · by_cases h' : r.bytes.length ≤ hardware.maxChunkBytes ∧ r.bytes.length % 4 = 0
    · simp [h, h']
    · simp [h, h']
      tauto
  · simp [h]

@[simp] theorem followedBy_next (t : State) (f : State → Result) : followedBy (.next t) f = f t := rfl

@[simp] theorem followedBy_refused (e : Refusal) (f : State → Result) :
    followedBy (.refused e) f = .refused e := rfl

theorem runTokens_append (as bs : List Token) (s : State) :
    runTokens (as ++ bs) s = followedBy (runTokens as s) (runTokens bs) := by
  induction as generalizing s with
  | nil => rfl
  | cons a as ih =>
    simp only [List.cons_append, runTokens]
    cases exec (decode s.outMode a) s with
    | next t => simp [ih]
    | fault e => cases e
    | refused e => rfl

@[simp] theorem hostWords_append (as bs : List Effect) : hostWords (as ++ bs) = hostWords as ++ hostWords bs := by
  induction as with
  | nil => rfl
  | cons a as ih => cases a <;> simp [hostWords, ih]

@[simp] theorem writeCalls_append (as bs : List Effect) :
    writeCalls (as ++ bs) = writeCalls as ++ writeCalls bs := by
  induction as with
  | nil => rfl
  | cons a as ih => cases a <;> simp [writeCalls, ih]

@[simp] theorem offered_append (as bs : List Effect) : offered (as ++ bs) = offered as ++ offered bs := by
  simp [offered]

end Sys2Proof.Machine
end

