-- ==== Sys2Proof/Tests/Slice0.lean ====
section
/-! SUPPORT. The session's own tests: well-formedness smoke tests, one decoding per table row class with the word written
out from spec/30_encoding.md, operations against the vectors of spec/95_test_vectors.md, and a witness for the hypotheses
of every statement. -/

namespace Sys2Proof.Tests

open Sys2Proof Sys2Proof.Machine

/-! ## Helpers -/

/-- A state in `Accumulating` with a given outbound buffer. -/
def acc (buf : List Byte) : State :=
  { State.reset with outMode := .accumulating, outBuf := buf }

/-- A state with a given inbound buffer. -/
def inb (buf : List Byte) : State :=
  { State.reset with inBuf := buf }

/-- The state after reset with given inputs to come. -/
def given (ts : List Token) : State :=
  { State.reset with input := ts }

/-- A check on the state an outcome goes on with; a stop fails it. -/
def ok (r : Result) (f : State → Bool) : Bool :=
  match r with
  | .next s => f s
  | .fault _ => false
  | .refused _ => false

/-- A check that an outcome is a given refusal. -/
def refuses (r : Result) (e : Refusal) : Bool :=
  match r with
  | .next _ => false
  | .fault _ => false
  | .refused e' => e' == e

/-! ## Well-formedness: one ill-formed term for each check -/

theorem test_wf_refuses_event_with_sysex_control : (Instr.inEvent 0x05 1 2 3).wf = false := by decide
theorem test_wf_refuses_channel_with_opener_status : (Instr.outChannel 0x000000F0).wf = false := by decide
theorem test_wf_refuses_channel_while_accumulating : (Instr.outChannel 0x00403C90).wfIn .accumulating = false := by decide
theorem test_wf_refuses_sysex_word_in_idle : (Instr.outSysexWord 0x00403C90).wfIn .idle = false := by decide
theorem test_wf_refuses_open_while_accumulating : Instr.byteOpen.wfIn .accumulating = false := by decide
theorem test_wf_refuses_skip_of_opener : (Instr.byteSkip 0xF0).wf = false := by decide
theorem test_wf_refuses_skip_while_accumulating : (Instr.byteSkip 0x01).wfIn .accumulating = false := by decide
theorem test_wf_refuses_data_terminator : (Instr.byteData 0xF7).wf = false := by decide
theorem test_wf_refuses_data_in_idle : (Instr.byteData 0x01).wfIn .idle = false := by decide
theorem test_wf_refuses_term_data : (Instr.byteTerm 0x7F).wf = false := by decide
theorem test_wf_refuses_term_opener : (Instr.byteTerm 0xF0).wf = false := by decide
theorem test_wf_refuses_term_in_idle : (Instr.byteTerm 0xF7).wfIn .idle = false := by decide

/-! ## Decoding: words written out from R71 to R79 -/

theorem test_decode_in_sysex_cont :
    decodeBytes .inPkt .idle [0x04, 0x11, 0x22, 0x33] = .ok (.inSysexCont 0x11 0x22 0x33) [] := by decide
theorem test_decode_in_sysex_end1 :
    decodeBytes .inPkt .idle [0x05, 0xF7, 0x00, 0x00] = .ok (.inSysexEnd1 0xF7 0x00 0x00) [] := by decide
theorem test_decode_in_sysex_end2 :
    decodeBytes .inPkt .idle [0x06, 0x44, 0x55, 0x00] = .ok (.inSysexEnd2 0x44 0x55 0x00) [] := by decide
theorem test_decode_in_sysex_end3 :
    decodeBytes .inPkt .accumulating [0x07, 0x41, 0x10, 0xF7, 0x99] = .ok (.inSysexEnd3 0x41 0x10 0xF7) [0x99] := by
  decide
theorem test_decode_in_event_rows :
    ([0x00, 0x03, 0x08, 0x0F, 0x10, 0x14, 0x3F, 0x40, 0x7F, 0x80, 0xFF] : List Byte).all (fun cb =>
      decodeBytes .inPkt .idle [cb, 1, 2, 3] == .ok (.inEvent cb 1 2 3) []) = true := by decide
theorem test_decode_out_channel_rows :
    ([0x00, 0x7F, 0x80, 0xBF, 0xC0, 0xDF, 0xE0, 0xEF, 0xF1, 0xF2, 0xF3, 0xF4, 0xF7, 0xF8, 0xFF] : List Byte).all (fun e0 =>
      decodeBytes .hostWord .idle [e0, 0x3C, 0x40, 0x00] == .ok (.outChannel (0x00403C00 ||| e0.setWidth 32)) []) = true := by
  decide
theorem test_decode_out_sysex_word_idle :
    decodeBytes .hostWord .idle [0xF0, 0x41, 0x10, 0xF7] = .ok (.outSysexWord 0xF71041F0) [] := by decide
theorem test_decode_out_sysex_word_accumulating :
    decodeBytes .hostWord .accumulating [0x90, 0x3C, 0x40, 0x00] = .ok (.outSysexWord 0x00403C90) [] := by decide
theorem test_decode_byte_open : decodeBytes .outByte .idle [0xF0] = .ok .byteOpen [] := by decide
theorem test_decode_byte_skip_rows :
    ([0x00, 0x7F, 0x80, 0xBF, 0xC0, 0xDF, 0xE0, 0xEF, 0xF1, 0xF2, 0xF3, 0xF4, 0xF7, 0xF8, 0xFF] : List Byte).all (fun b =>
      decodeBytes .outByte .idle [b] == .ok (.byteSkip b) []) = true := by decide
theorem test_decode_byte_data_rows :
    ([0x00, 0x7F, 0xF0] : List Byte).all (fun b =>
      decodeBytes .outByte .accumulating [b] == .ok (.byteData b) []) = true := by decide
theorem test_decode_byte_term_rows :
    ([0x80, 0xBF, 0xC0, 0xDF, 0xE0, 0xEF, 0xF1, 0xF2, 0xF3, 0xF4, 0xF7, 0xF8, 0xFF] : List Byte).all (fun b =>
      decodeBytes .outByte .accumulating [b] == .ok (.byteTerm b) []) = true := by decide
theorem test_decode_events :
    decode .idle (.event (.batch [1])) = .outBatch [1] ∧ decode .idle (.event .batchEnd) = .batchEnd ∧
    decode .idle (.event (.chunk .timedOut)) = .chunk .timedOut ∧
    decode .idle (.event (.iter [1] .timedOut)) = .iterate [1] .timedOut ∧
    decode .idle (.event .shutdown) = .shutdown ∧ decode .idle (.event .reset) = .reset := by decide
theorem test_decode_rejects_short_packet :
    decodeBytes .inPkt .idle [0x04, 0x11, 0x22] = .rejected (.truncated .inPkt) := by decide
theorem test_decode_rejects_control : decodeBytes .ctrl .idle [0x00] = .rejected (.noBits .ctrl) := by decide
theorem test_internal_has_no_token :
    encode .flushForced = none ∧ encode .flushTerminal = none ∧ encode .inFlush = none := by decide
theorem test_table_word_byte : decodeTableWord 8 0xF0 = some .byteOpen := by decide
theorem test_table_word_packet : decodeTableWord 32 0x33221104 = some (.inSysexCont 0x11 0x22 0x33) := by decide

/-! ## Operations, against spec/95_test_vectors.md -/

/-- V-L1.1. -/
theorem test_note_on :
    ok (exec (.outBatch [0x00403C90]) State.reset) (fun t => writeCalls t.trace == [[0x09, 0x90, 0x3C, 0x40]]) = true := by
  decide
/-- Section 3.1: the fourth slot is dropped, and system common goes out as CIN 0x0F. -/
theorem test_channel_corner_cases :
    ok (exec (.outChannel 0x7F7F7FEF) State.reset) (fun t => t.outQ == [⟨0x0E, 0xEF, 0x7F, 0x7F⟩]) = true ∧
    ok (exec (.outChannel 0x000012F2) State.reset) (fun t => t.outQ == [⟨0x0F, 0xF2, 0x12, 0x00⟩]) = true := by decide
/-- V-L1.3. -/
theorem test_open_and_close_in_one_word :
    ok (exec (.outSysexWord 0xF71041F0) State.reset) (fun t =>
      t.outQ == [⟨0x04, 0xF0, 0x41, 0x10⟩, ⟨0x05, 0xF7, 0x00, 0x00⟩] && t.outMode == .idle && t.outBuf == []) = true := by
  decide
/-- V-L1.3 with `OUT_OPENER_IN_BUFFER = false`. -/
theorem test_opener_not_sent :
    (outSysexWord { hardware with openerInBuffer := false } 0xF71041F0 State.reset).outQ = [⟨0x07, 0x41, 0x10, 0xF7⟩] := by
  decide
/-- Section 3.2: close, then reopen in the same word. -/
theorem test_reopen_in_one_word :
    ok (exec (.outSysexWord 0x0605F0F7) (acc [0xF0, 0x01, 0x02])) (fun t =>
      t.outQ == [⟨0x04, 0xF0, 0x01, 0x02⟩, ⟨0x05, 0xF7, 0x00, 0x00⟩] && t.outMode == .accumulating &&
        t.outBuf == [0xF0, 0x05, 0x06]) = true := by decide
/-- R106: the opener is buffered. -/
theorem test_byte_open : ok (exec .byteOpen State.reset) (fun t => t == acc [0xF0]) = true := by decide
/-- R105. -/
theorem test_byte_skip : ok (exec (.byteSkip 0x90) State.reset) (fun t => t == State.reset) = true := by decide
/-- V-L1.10: the forced flush at the 48th byte. -/
theorem test_byte_data_forced_flush :
    ok (exec (.byteData 0x2F) (acc (List.replicate 47 0x01))) (fun t =>
      t.outQ == List.replicate 15 ⟨0x04, 0x01, 0x01, 0x01⟩ ++ [⟨0x04, 0x01, 0x01, 0x2F⟩] && t.outBuf == [] &&
        t.outMode == .accumulating) = true := by decide
/-- V-L1.4: a terminator as the 48th byte. -/
theorem test_byte_term_at_48 :
    ok (exec (.byteTerm 0xF7) (acc (List.replicate 47 0x01))) (fun t =>
      t.outQ == List.replicate 15 ⟨0x04, 0x01, 0x01, 0x01⟩ ++ [⟨0x07, 0x01, 0x01, 0xF7⟩] && t.outMode == .idle) = true := by
  decide
/-- V-L1.4: L = 5. -/
theorem test_flush_terminal_of_five :
    ok (exec .flushTerminal (acc [0xF0, 0x01, 0x02, 0x03, 0xF7])) (fun t =>
      t.outQ == [⟨0x04, 0xF0, 0x01, 0x02⟩, ⟨0x06, 0x03, 0xF7, 0x00⟩]) = true := by decide
/-- V-L1.6. -/
theorem test_flushes_of_nothing :
    ok (exec .flushTerminal State.reset) (fun t => t == State.reset) = true ∧
    ok (exec .flushForced State.reset) (fun t => t == State.reset) = true ∧
    ok (exec .inFlush State.reset) (fun t => t == State.reset) = true := by decide
/-- R112: 16 full triples. -/
theorem test_flush_forced :
    ok (exec .flushForced (acc (List.replicate 48 0x02))) (fun t =>
      t.outQ == List.replicate 16 ⟨0x04, 0x02, 0x02, 0x02⟩ && t.cellDraws == 0) = true := by decide
/-- Section 3.4: an empty batch makes no call. -/
theorem test_batch_end_of_nothing : ok (exec .batchEnd State.reset) (fun t => t == State.reset) = true := by decide
/-- Section 3.4: the two groupings cut one batch into one call and into two. -/
theorem test_write_groupings :
    writeCalls (outBatch hardware [0xF71041F0, 0x00403C90] State.reset).trace =
      [[0x04, 0xF0, 0x41, 0x10, 0x05, 0xF7, 0x00, 0x00, 0x09, 0x90, 0x3C, 0x40]] ∧
    writeCalls (outBatch { hardware with writeGrouping := .perFlush } [0xF71041F0, 0x00403C90] State.reset).trace =
      [[0x04, 0xF0, 0x41, 0x10, 0x05, 0xF7, 0x00, 0x00], [0x09, 0x90, 0x3C, 0x40]] := by decide
/-- V-L1.8: the flush in the middle of a triple. -/
theorem test_in_sysex_cont_mid_triple :
    ok (exec (.inSysexCont 0x11 0x22 0x33) (inb [0xA1, 0xA2, 0xA3])) (fun t =>
      hostWords t.trace == [0x11A3A2A1] && t.inBuf == [0x22, 0x33] && t.inMode == .accumulating) = true := by decide
/-- Section 3.5. -/
theorem test_in_sysex_end1 :
    ok (exec (.inSysexEnd1 0xF7 0x00 0x00) (inb [0xA1, 0xA2])) (fun t =>
      hostWords t.trace == [0x00F7A2A1, 0x00000000] && t.inBuf == []) = true := by decide
/-- Section 3.5. -/
theorem test_in_sysex_end2 :
    ok (exec (.inSysexEnd2 0x55 0xF7 0x00) (inb [0xA1, 0xA2, 0xA3])) (fun t =>
      hostWords t.trace == [0x55A3A2A1, 0x000000F7] && t.inBuf == []) = true := by decide
/-- Section 3.5. -/
theorem test_in_sysex_end3 :
    ok (exec (.inSysexEnd3 0x55 0x66 0xF7) (inb [0xA1])) (fun t =>
      hostWords t.trace == [0xF76655A1] && t.inBuf == [] && t.inMode == .idle) = true := by decide
/-- Section 3.6. -/
theorem test_in_event :
    ok (exec (.inEvent 0xFF 0xFF 0xFF 0xFF) (inb [0xA1])) (fun t =>
      hostWords t.trace == [0x00FFFFFF] && t.inBuf == [0xA1]) = true := by decide
/-- R157. -/
theorem test_in_flush :
    ok (exec .inFlush (inb [0x11, 0x22, 0x33, 0x44])) (fun t =>
      hostWords t.trace == [0x44332211] && t.inBuf == []) = true := by decide
/-- V-L1.2. -/
theorem test_chunk :
    ok (exec (.chunk ⟨.success, [0x04, 0x11, 0x22, 0x33, 0x06, 0x44, 0x55, 0x00]⟩) State.reset) (fun t =>
      hostWords t.trace == [0x44332211, 0x00000055] && t.inMode == .idle) = true := by decide
/-- Section 3.7: the length test comes before the alignment test, and the status test before both. -/
theorem test_chunk_order_of_tests :
    refuses (exec (.chunk ⟨.success, List.replicate 66 0⟩) State.reset) .chunkTooLong = true ∧
    refuses (exec (.chunk ⟨.success, List.replicate 6 0⟩) State.reset) .partialPacket = true ∧
    ok (exec (.chunk ⟨.transferFailed, List.replicate 6 0⟩) State.reset) (fun t => t == State.reset) = true := by decide
/-- Section 3.8: the write comes before what the read delivers. -/
theorem test_iterate_order :
    ok (exec (.iterate [0x00403C90] ⟨.success, [0x0F, 0xF8, 0x00, 0x00]⟩) State.reset) (fun t =>
      match t.trace with
      | [.transportWrite bs _, .hostWrite _ w] => bs == [0x09, 0x90, 0x3C, 0x40] && w == 0x000000F8
      | _ => false) = true := by decide
/-- Section 3.8: shutdown, then stop, then a refusal. -/
theorem test_iterate_after_shutdown :
    ok (exec (.iterate [0x00403C90] .timedOut) { State.reset with shutdownReq := true }) (fun t =>
      t == { State.reset with shutdownReq := true, runState := .stopped }) = true ∧
    refuses (exec (.iterate [] .timedOut) { State.reset with runState := .stopped }) .afterStop = true := by decide
/-- Section 3.8. -/
theorem test_shutdown : ok (exec .shutdown State.reset) (fun t => t.shutdownReq) = true := by decide
/-- Section 3.8: any state, all buffered bytes lost. -/
theorem test_reset : ok (exec .reset (acc [0xF0, 0x01])) (fun t => t == State.reset) = true := by decide
/-- P4, first step, as one step of the machine. -/
theorem test_step_iteration :
    ok (step (given [.event (.iter [0x030201F0, 0x000000F7] ⟨.success, [4, 0xF0, 1, 2, 6, 3, 0xF7, 0]⟩)])) (fun t =>
      writeCalls t.trace == [[4, 0xF0, 1, 2, 6, 3, 0xF7, 0]] && hostWords t.trace == [0x030201F0, 0x000000F7] &&
        t.input == []) = true := by decide
/-- R242: an idle iteration leaves the entry state. -/
theorem test_step_idle : ok (step State.reset) (fun t => t == State.reset) = true := by decide
/-- R86. -/
theorem test_sysex_words : sysexWords [0xF0, 0x41, 0x10, 0xF7, 0x01] = [0xF71041F0, 0x00000001] := by decide
theorem test_hardware_params_wf : hardware.wf = true := by decide
theorem test_msg_word : msgWord 0x90 0x3C 0x40 = 0x00403C90 := by decide

/-! ## Witnesses: a concrete case that meets the hypotheses of each statement, clause by clause -/

theorem witness_StepRunsTheDecodedToken :
    (given [.packet ⟨4, 1, 2, 3⟩]).runState = .running ∧
    (given [.packet ⟨4, 1, 2, 3⟩]).input = [.packet ⟨4, 1, 2, 3⟩] ∧
    decodeBytes .inPkt .idle [4, 1, 2, 3] = .ok (.inSysexCont 1 2 3) [] ∧
    (given [.word 0xF0]).input = [.word 0xF0] ∧
    decodeBytes .hostWord .idle [0xF0, 0, 0, 0] = .ok (.outSysexWord 0xF0) [] ∧
    (given [.byte 0xF0]).input = [.byte 0xF0] ∧ decodeBytes .outByte .idle [0xF0] = .ok .byteOpen [] ∧
    (given [.event .batchEnd]).input = [.event .batchEnd] ∧ decodeEvent .batchEnd = .batchEnd := by decide
theorem witness_StepWithoutInputOrAfterStop :
    (State.reset.input = [] ∧ State.reset.runState = .running) ∧
    (let s : State := { State.reset with runState := .stopped }
     s.input = [] ∧ s.runState = .stopped) ∧
    (let s : State := { given [.byte 0] with runState := .stopped }
     s.input = [.byte 0] ∧ s.runState = .stopped ∧ (.byte 0 : Token) ≠ .event .reset ∧
       (.byte 0 : Token) ≠ .event .shutdown) ∧
    (given [.event .reset]).input = [.event .reset] ∧ (given [.event .shutdown]).input = [.event .shutdown] := by decide
theorem witness_TableWordIsTheNextOperation :
    decodeTableWord 8 0xF0 = some .byteOpen ∧ decodeTableWord 9 0x04 = some (.inSysexCont 0 0 0) := by decide
theorem witness_NonzeroCableNibbleIsAnEvent : 16 ≤ (0x10 : Byte).toNat ∧ 16 ≤ (0xFF : Byte).toNat := by decide
theorem witness_DecodeInvertsEncode :
    (Instr.byteTerm 0x80).wfIn .accumulating = true ∧ encode (.byteTerm 0x80) = some (.byte 0x80) ∧
    (Instr.byteTerm 0x80).op.format = .outByte ∧ (Instr.outChannel 0xF1).wfIn .idle = true ∧
    (Instr.outChannel 0xF1).op.format = .hostWord ∧ (Instr.inEvent 3 0 0 0).wfIn .idle = true ∧
    (Instr.inEvent 3 0 0 0).op.format = .inPkt := by decide
theorem witness_ByteOpenEntersAccumulating :
    State.reset.outBuf = [] ∧ ({ hardware with openerInBuffer := false } : Params).openerInBuffer = false := by decide
theorem witness_ByteDataAppendsAndFlushesAt48 :
    (acc (List.replicate 46 1)).outBuf.length ≠ 47 ∧ (acc (List.replicate 48 1)).outBuf.length ≠ 47 ∧
    (acc (List.replicate 47 1)).outBuf.length = 47 := by decide
theorem witness_FlushTerminalFramesTheBuffer : State.reset.outBuf = [] ∧ (acc [1]).outBuf ≠ [] := by decide
theorem witness_FlushForcedSendsSixteenTriples :
    State.reset.outBuf = [] ∧ (acc (List.replicate 48 1)).outBuf.length = 48 ∧
    (0 < (acc [1]).outBuf.length ∧ (acc [1]).outBuf.length < 48) ∧
    (acc (List.replicate 47 1)).outBuf.length < 48 ∧ 48 < (acc (List.replicate 49 1)).outBuf.length := by decide
theorem witness_OutByteRunsThePickedOperation :
    (State.reset.outMode = .idle ∧ (0 : Byte) ≠ 0xF0) ∧
    ((acc []).outMode = .accumulating ∧ (0x7F : Byte) ≠ 0xF0 ∧ (0x7F : Byte).toNat < 128) ∧
    ((0x80 : Byte) ≠ 0xF0 ∧ 128 ≤ (0x80 : Byte).toNat) := by decide
theorem witness_BatchEndWritesTheQueueOnce :
    State.reset.outQ = [] ∧ ({ State.reset with outQ := [⟨9, 0x90, 0x3C, 0x40⟩] } : State).outQ ≠ [] := by decide
theorem witness_PerFlushWritesAtEveryFlush :
    let p : Params := { hardware with writeGrouping := .perFlush }
    p.writeGrouping = .perFlush ∧ 3 ≤ p.outSysexMax ∧ (acc (List.replicate 48 1)).outBuf ≠ [] ∧
      (acc (List.replicate 48 1)).outBuf.length = p.outSysexMax := by decide
theorem witness_ChannelMessageInsideSysexTerminatesIt :
    let w : Word := 0x00403C90
    (acc [0xF0]).outMode = .accumulating ∧ 128 ≤ (w.extractLsb' 0 8).toNat ∧ w.extractLsb' 0 8 ≠ 0xF0 ∧
      w.extractLsb' 8 8 ≠ 0xF0 ∧ w.extractLsb' 16 8 ≠ 0xF0 ∧ w.extractLsb' 24 8 ≠ 0xF0 := by decide
theorem witness_StreamPacketCounts :
    (acc []).outMode = .accumulating ∧ (acc []).outBuf = [] ∧
    (∀ b ∈ (List.replicate 47 0x7F ++ [0xF0] : List Byte), b.toNat < 128 ∨ b = 0xF0) ∧
    128 ≤ (0xF7 : Byte).toNat ∧ (0xF7 : Byte) ≠ 0xF0 := by decide
theorem witness_WriteGroupingsOfferTheSameBytes :
    hardware.openerInBuffer = ({ hardware with writeGrouping := .perFlush } : Params).openerInBuffer ∧
    hardware.outSysexMax = ({ hardware with writeGrouping := .perFlush } : Params).outSysexMax := by decide
theorem witness_InSysexByBufferLength :
    (inb []).inBuf = [] ∧ (inb [1]).inBuf = [1] ∧ (inb [1, 2]).inBuf = [1, 2] ∧ (inb [1, 2, 3]).inBuf = [1, 2, 3] := by
  decide
theorem witness_InFlushPacksTheBuffer :
    (inb []).inBuf = [] ∧ ((inb [1]).inBuf ≠ [] ∧ (inb [1]).inBuf.length ≤ 4) ∧
    ((inb [1, 2, 3, 4]).inBuf ≠ [] ∧ (inb [1, 2, 3, 4]).inBuf.length ≤ 4) := by decide
theorem witness_ChunkTestsStatusLengthAlignment :
    (ReadResult.timedOut.status ≠ .success) ∧
    (let r : ReadResult := ⟨.success, List.replicate 65 0⟩
     r.status = .success ∧ 64 < r.bytes.length) ∧
    (let r : ReadResult := ⟨.success, List.replicate 63 0⟩
     r.status = .success ∧ r.bytes.length ≤ 64 ∧ r.bytes.length % 4 ≠ 0) := by decide
theorem witness_ChunkRunsItsPacketsInOrder : (List.replicate 16 (⟨4, 1, 2, 3⟩ : Packet)).length ≤ 16 := by decide
theorem witness_InboundNeverInspectsPayload :
    ([⟨4, 1, 2, 3⟩] : List Packet).map Packet.p0 = ([⟨4, 0xF0, 0xF7, 0⟩] : List Packet).map Packet.p0 ∧
    (inb [1]).inBuf.length = (inb [2]).inBuf.length ∧ (inb [1]).inMode = (inb [2]).inMode := by decide
theorem witness_StreamWordCounts :
    (inb []).inBuf = [] ∧ (∀ p ∈ ([⟨0x04, 1, 2, 3⟩] : List Packet), p.p0 = 0x04) ∧
    ((⟨0x05, 0xF7, 0, 0⟩ : Packet).p0 = 0x05 ∨ (⟨0x05, 0xF7, 0, 0⟩ : Packet).p0 = 0x06 ∨
      (⟨0x05, 0xF7, 0, 0⟩ : Packet).p0 = 0x07) := by decide
theorem witness_SysexRoundTrip :
    (∀ b ∈ ([0x41, 0x10] : List Byte), b.toNat < 128) ∧ 128 ≤ (0xF7 : Byte).toNat ∧ (0xF7 : Byte) ≠ 0xF0 ∧
    (inb [1, 2]).outboundView = State.reset.outboundView ∧
    (acc [0xF0]).inboundView = State.reset.inboundView := by decide
theorem witness_IterateRunsBatchThenChunk :
    ({ State.reset with runState := .stopped } : State).runState = .stopped ∧
    (State.reset.runState = .running ∧ State.reset.shutdownReq = false) ∧
    (let s : State := { State.reset with shutdownReq := true }
     s.runState = .running ∧ s.shutdownReq = true) := by decide
theorem witness_IterateAndChunkComplete :
    ReadResult.timedOut.status ≠ .success ∧
    ((⟨.success, List.replicate 64 0⟩ : ReadResult).bytes.length ≤ 64 ∧
      (⟨.success, List.replicate 64 0⟩ : ReadResult).bytes.length % 4 = 0) ∧ State.reset.runState = .running := by decide
theorem witness_OperationsComplete :
    (Instr.byteOpen).op ≠ .chunk ∧ (Instr.byteOpen).op ≠ .iterate := by decide
theorem witness_ShutdownInsideAnIterationIsSeenAfterIt :
    let r : ReadResult := ⟨.success, [4, 1, 2, 3, 5, 0xF7, 0, 0]⟩
    State.reset.runState = .running ∧ State.reset.shutdownReq = false ∧
    (∃ out ∈ batchParts [0xF0, 0xF7], ∃ inn ∈ readParts r,
      ([.word 0xF0] : List Token) ++
        [.word 0xF7, .event .batchEnd, .packet ⟨4, 1, 2, 3⟩, .packet ⟨5, 0xF7, 0, 0⟩] = out ++ inn) ∧
    (∃ out ∈ batchParts [0xF0, 0xF7], ∃ inn ∈ readParts r,
      ([.word 0xF0, .word 0xF7, .event .batchEnd, .packet ⟨4, 1, 2, 3⟩] : List Token) ++ [.packet ⟨5, 0xF7, 0, 0⟩] =
        out ++ inn) ∧
    (∃ out ∈ batchParts [0xF0], ∃ inn ∈ readParts ⟨.success, [1, 2]⟩,
      ([.event (.batch [0xF0])] : List Token) ++ [.event (.chunk ⟨.success, [1, 2]⟩)] = out ++ inn) ∧
    (∃ out ∈ batchParts [0xF0], ∃ inn ∈ readParts .timedOut,
      ([.word 0xF0, .event .batchEnd] : List Token) ++ [] = out ++ inn) := by decide
theorem witness_StepsRunTheTokensInOrder :
    State.reset.runState = .running ∧
    ([.word 0xF0, .byte 1, .packet ⟨4, 1, 2, 3⟩, .event .batchEnd] : List Token).all Token.isHalf = true := by decide
theorem witness_StoppedStaysStopped :
    let s : State := { given [.event .shutdown] with runState := .stopped, shutdownReq := true }
    s.runState = .stopped ∧ s.input.head? ≠ some (.event .reset) ∧ s.Inv ∧ ∃ t, step s = .next t :=
  ⟨rfl, by decide, by decide, _, rfl⟩
theorem witness_LoopStopsOnlyOnShutdown :
    (∃ t, step { State.reset with shutdownReq := true } = .next t ∧ t.runState = .stopped) ∧
    ∃ t, step State.reset = .next t ∧ t.runState = .running :=
  ⟨⟨_, rfl, rfl⟩, _, rfl, rfl⟩
theorem witness_OnlyShutdownAndResetWriteTheFlag :
    (∃ t, step { given [.event .shutdown] with shutdownReq := true } = .next t) ∧
    (∃ t, step State.reset = .next t) ∧ State.reset.shutdownReq = false ∧
    State.reset.input.head? ≠ some (.event .shutdown) :=
  ⟨⟨_, rfl⟩, ⟨_, rfl⟩, rfl, by decide⟩
theorem witness_FailedReadsChangeNothing :
    State.reset.runState = .running ∧ State.reset.shutdownReq = false ∧ State.reset.outQ = [] ∧
    (∀ r ∈ ([⟨.transferFailed, []⟩, ⟨.notConnected, [1]⟩, .timedOut] : List ReadResult), r.status ≠ .success) := by decide
theorem witness_HalvesWriteOnlyTheirOwnState :
    (isOutbound (Instr.byteTerm 0xF7).op = true ∧ ∃ t, exec (.byteTerm 0xF7) (acc [0xF0]) = .next t) ∧
    (isInbound (Instr.inSysexEnd1 0xF7 0 0).op = true ∧ ∃ t, exec (.inSysexEnd1 0xF7 0 0) (inb [1]) = .next t) :=
  ⟨⟨rfl, _, rfl⟩, rfl, _, rfl⟩
theorem witness_HalvesReadOnlyTheirOwnState :
    (acc [0xF0]).outboundView = ({ acc [0xF0] with inBuf := [1] } : State).outboundView ∧
    (acc [0xF0]).cellDraws = ({ acc [0xF0] with inBuf := [1] } : State).cellDraws ∧
    isOutbound (Instr.byteTerm 0xF7).op = true ∧
    (inb [1]).inboundView = ({ inb [1] with outBuf := [1] } : State).inboundView ∧
    isInbound (Instr.inSysexEnd1 0xF7 0 0).op = true := by decide
theorem witness_StepKeepsTheInvariants :
    let s := given [.event (.iter [0xF71041F0] ⟨.success, [4, 1, 2, 3]⟩)]
    s.Inv ∧ s.Framed ∧ s.QueueDrained ∧ ∃ t, step s = .next t :=
  ⟨by decide, by decide, by decide, _, rfl⟩

end Sys2Proof.Tests
end

namespace Sys2Proof.Machine

/-! ## Two runs of one half side by side (R3)

An operation of a half touches the state of its own half only, and what it does there depends on that state alone. Both
facts are one property of two runs of the operation, so each operation is gone through once: the frame (O49) and the
noninterference (O50, O51) are read off at the end. -/

/-- One half of the block as an observer sees it: what its operations may read, what they must leave as it is, and what
they have produced so far. -/
structure Half (κ ρ ω : Type) where
  reads : State → κ
  leaves : State → ρ
  emits : State → List ω

/-- The outbound half. The count of dead cell views is read by a forced flush of a short buffer (log entry 6). -/
def outboundHalf :
    Half ((Mode × List Byte × List Packet) × Nat)
      ((Mode × List Byte) × (RunState × Bool) × List Token × List Word × Nat) (List Byte) where
  reads s := (s.outboundView, s.cellDraws)
  leaves s := (s.inboundView, s.loopView, s.input, hostWords s.trace, s.tsDraws)
  emits s := writeCalls s.trace

/-- The inbound half. -/
def inboundHalf :
    Half (Mode × List Byte)
      ((Mode × List Byte × List Packet) × (RunState × Bool) × List Token × List (List Byte) × Nat × Nat) Word where
  reads s := s.inboundView
  leaves s := (s.outboundView, s.loopView, s.input, writeCalls s.trace, s.writeDraws, s.cellDraws)
  emits s := hostWords s.trace

/-- Two runs of a half, from `s₀` to `s` and from `s₀'` to `s'`, are twins: they agree on what the half reads, each has
left alone what the half must leave, and both have produced the same. -/
structure Half.Twin {κ ρ ω : Type} (H : Half κ ρ ω) (s₀ s₀' s s' : State) : Prop where
  reads : H.reads s = H.reads s'
  leaves : H.leaves s = H.leaves s₀
  leaves' : H.leaves s' = H.leaves s₀'
  emits : ∃ os, H.emits s = H.emits s₀ ++ os ∧ H.emits s' = H.emits s₀' ++ os

namespace Half.Twin

section General

variable {κ ρ ω : Type} {H : Half κ ρ ω} {s₀ s₀' s s' t t' : State}

/-- Before anything has run, two states that agree on what the half reads are twins. -/
theorem start (h : H.reads s = H.reads s') : H.Twin s s' s s' :=
  ⟨h, rfl, rfl, [], by simp⟩

/-- Twins stay twins when both go on by producing the same `os`. -/
theorem extend (h : H.Twin s₀ s₀' s s') (os : List ω) (hr : H.reads t = H.reads t')
    (hl : H.leaves t = H.leaves s) (hl' : H.leaves t' = H.leaves s')
    (he : H.emits t = H.emits s ++ os) (he' : H.emits t' = H.emits s' ++ os) : H.Twin s₀ s₀' t t' := by
  obtain ⟨os₀, e, e'⟩ := h.emits
  exact ⟨hr, hl.trans h.leaves, hl'.trans h.leaves', os₀ ++ os, by simp [he, e], by simp [he', e']⟩

/-- Twins stay twins when both go on in silence. -/
theorem silent (h : H.Twin s₀ s₀' s s') (hr : H.reads t = H.reads t')
    (hl : H.leaves t = H.leaves s) (hl' : H.leaves t' = H.leaves s')
    (he : H.emits t = H.emits s) (he' : H.emits t' = H.emits s') : H.Twin s₀ s₀' t t' :=
  h.extend [] hr hl hl' (by simp [he]) (by simp [he'])

end General

variable {p : Params} {s₀ s₀' s s' : State}

/-! ## Outbound: what twins agree on, and one lemma per shared operation -/

section Outbound

theorem outMode_eq (h : outboundHalf.Twin s₀ s₀' s s') : s.outMode = s'.outMode :=
  congrArg (·.1.1) h.reads

theorem outBuf_eq (h : outboundHalf.Twin s₀ s₀' s s') : s.outBuf = s'.outBuf :=
  congrArg (·.1.2.1) h.reads

theorem outQ_eq (h : outboundHalf.Twin s₀ s₀' s s') : s.outQ = s'.outQ :=
  congrArg (·.1.2.2) h.reads

theorem cellDraws_eq (h : outboundHalf.Twin s₀ s₀' s s') : s.cellDraws = s'.cellDraws :=
  congrArg (·.2) h.reads

theorem after_openOutMode (h : outboundHalf.Twin s₀ s₀' s s') :
    outboundHalf.Twin s₀ s₀' (openOutMode s) (openOutMode s') :=
  h.silent (by simp [outboundHalf, h.outBuf_eq, h.outQ_eq, h.cellDraws_eq]) rfl rfl rfl rfl

theorem after_closeOutMode (h : outboundHalf.Twin s₀ s₀' s s') :
    outboundHalf.Twin s₀ s₀' (closeOutMode s) (closeOutMode s') :=
  h.silent (by simp [outboundHalf, h.outBuf_eq, h.outQ_eq, h.cellDraws_eq]) rfl rfl rfl rfl

theorem after_queuePackets (h : outboundHalf.Twin s₀ s₀' s s') (ps : List Packet) :
    outboundHalf.Twin s₀ s₀' (queuePackets ps s) (queuePackets ps s') :=
  h.silent (by simp [outboundHalf, h.outMode_eq, h.outBuf_eq, h.outQ_eq, h.cellDraws_eq]) rfl rfl rfl rfl

theorem after_appendOut (h : outboundHalf.Twin s₀ s₀' s s') (b : Byte) :
    outboundHalf.Twin s₀ s₀' (appendOut b s) (appendOut b s') :=
  h.silent (by simp [outboundHalf, h.outMode_eq, h.outBuf_eq, h.outQ_eq, h.cellDraws_eq]) rfl rfl rfl rfl

theorem after_clearOut (h : outboundHalf.Twin s₀ s₀' s s') :
    outboundHalf.Twin s₀ s₀' (clearOut s) (clearOut s') :=
  h.silent (by simp [outboundHalf, h.outMode_eq, h.outQ_eq, h.cellDraws_eq]) rfl rfl rfl rfl

theorem after_viewDeadCells (h : outboundHalf.Twin s₀ s₀' s s') :
    outboundHalf.Twin s₀ s₀' (viewDeadCells p s) (viewDeadCells p s') := by
  unfold viewDeadCells
  rw [h.outBuf_eq]
  split
  · exact h.silent (by simp [outboundHalf, h.outMode_eq, h.outQ_eq, h.cellDraws_eq]) rfl rfl rfl rfl
  · exact h

/-- WriteQueue makes the same call in both runs: the report it records may differ, the bytes it offers may not. -/
theorem after_writeQueue (h : outboundHalf.Twin s₀ s₀' s s') :
    outboundHalf.Twin s₀ s₀' (writeQueue s) (writeQueue s') := by
  unfold writeQueue
  rw [h.outQ_eq]
  split
  · exact h
  · exact h.extend [packetBytes s'.outQ] (by simp [outboundHalf, h.outMode_eq, h.outBuf_eq, h.cellDraws_eq])
      (by simp [outboundHalf, hostWords]) (by simp [outboundHalf, hostWords])
      (by simp [outboundHalf, writeCalls]) (by simp [outboundHalf, writeCalls])

theorem after_endFlush (h : outboundHalf.Twin s₀ s₀' s s') :
    outboundHalf.Twin s₀ s₀' (endFlush p s) (endFlush p s') := by
  cases hp : p.writeGrouping with
  | perBatch => simpa [hp] using h
  | perFlush => simpa [hp] using h.after_writeQueue

theorem after_flushForced (h : outboundHalf.Twin s₀ s₀' s s') :
    outboundHalf.Twin s₀ s₀' (flushForced p s) (flushForced p s') := by
  unfold flushForced
  rw [h.outBuf_eq, h.cellDraws_eq]
  split
  · exact h
  · exact (h.after_queuePackets _).after_viewDeadCells.after_clearOut.after_endFlush

theorem after_flushTerminal (h : outboundHalf.Twin s₀ s₀' s s') :
    outboundHalf.Twin s₀ s₀' (flushTerminal p s) (flushTerminal p s') := by
  unfold flushTerminal
  rw [h.outBuf_eq]
  split
  · exact h
  · exact (h.after_queuePackets _).after_clearOut.after_endFlush

theorem after_byteData (h : outboundHalf.Twin s₀ s₀' s s') (b : Byte) :
    outboundHalf.Twin s₀ s₀' (byteData p b s) (byteData p b s') := by
  unfold byteData
  rw [(h.after_appendOut b).outBuf_eq]
  split
  · exact (h.after_appendOut b).after_flushForced
  · exact h.after_appendOut b

theorem after_byteOpen (h : outboundHalf.Twin s₀ s₀' s s') :
    outboundHalf.Twin s₀ s₀' (byteOpen p s) (byteOpen p s') := by
  unfold byteOpen
  split
  · exact h.after_openOutMode.after_byteData opener
  · exact h.after_openOutMode

theorem after_byteTerm (h : outboundHalf.Twin s₀ s₀' s s') (b : Byte) :
    outboundHalf.Twin s₀ s₀' (byteTerm p b s) (byteTerm p b s') :=
  (h.after_appendOut b).after_flushTerminal.after_closeOutMode

/-- OutByte picks the same byte operation in both runs, since both are in one mode (R104). -/
theorem after_outByte (h : outboundHalf.Twin s₀ s₀' s s') (b : Byte) :
    outboundHalf.Twin s₀ s₀' (outByte p b s) (outByte p b s') := by
  unfold outByte
  rw [h.outMode_eq]
  split
  · split
    · exact h.after_byteOpen
    · exact h
  · split
    · exact h.after_byteTerm b
    · exact h.after_byteData b

theorem after_outBytes (h : outboundHalf.Twin s₀ s₀' s s') (bs : List Byte) :
    outboundHalf.Twin s₀ s₀' (outBytes p bs s) (outBytes p bs s') := by
  induction bs generalizing s s' with
  | nil => exact h
  | cons b bs ih => exact ih (h.after_outByte b)

/-- OutEvent takes the same path in both runs, since both are in one mode at the word's start (R101). -/
theorem after_outEvent (h : outboundHalf.Twin s₀ s₀' s s') (w : Word) :
    outboundHalf.Twin s₀ s₀' (outEvent p w s) (outEvent p w s') := by
  unfold outEvent
  rw [h.outMode_eq]
  split
  · exact h.after_queuePackets [channelPacket w]
  · exact h.after_outBytes (lanes w)

theorem after_outEvents (h : outboundHalf.Twin s₀ s₀' s s') (ws : List Word) :
    outboundHalf.Twin s₀ s₀' (outEvents p ws s) (outEvents p ws s') := by
  induction ws generalizing s s' with
  | nil => exact h
  | cons w ws ih => exact ih (h.after_outEvent w)

end Outbound

/-! ## Inbound: what twins agree on, and one lemma per shared operation -/

section Inbound

theorem inMode_eq (h : inboundHalf.Twin s₀ s₀' s s') : s.inMode = s'.inMode :=
  congrArg (·.1) h.reads

theorem inBuf_eq (h : inboundHalf.Twin s₀ s₀' s s') : s.inBuf = s'.inBuf :=
  congrArg (·.2) h.reads

/-- EmitHost writes the same word in both runs: its timestamp may differ. -/
theorem after_emitHost (h : inboundHalf.Twin s₀ s₀' s s') (w : Word) :
    inboundHalf.Twin s₀ s₀' (emitHost w s) (emitHost w s') :=
  h.extend [w] h.reads (by simp [inboundHalf, writeCalls]) (by simp [inboundHalf, writeCalls])
    (by simp [inboundHalf, hostWords]) (by simp [inboundHalf, hostWords])

theorem after_writeInMode (h : inboundHalf.Twin s₀ s₀' s s') (m : Mode) :
    inboundHalf.Twin s₀ s₀' (writeInMode m s) (writeInMode m s') :=
  h.silent (by simp [inboundHalf, h.inBuf_eq]) rfl rfl rfl rfl

theorem after_inAppend (h : inboundHalf.Twin s₀ s₀' s s') (b : Byte) :
    inboundHalf.Twin s₀ s₀' (inAppend b s) (inAppend b s') :=
  h.silent (by simp [inboundHalf, h.inMode_eq, h.inBuf_eq]) rfl rfl rfl rfl

theorem after_clearIn (h : inboundHalf.Twin s₀ s₀' s s') :
    inboundHalf.Twin s₀ s₀' (clearIn s) (clearIn s') :=
  h.silent (by simp [inboundHalf, h.inMode_eq]) rfl rfl rfl rfl

theorem after_inFlush (h : inboundHalf.Twin s₀ s₀' s s') :
    inboundHalf.Twin s₀ s₀' (inFlush s) (inFlush s') := by
  unfold inFlush
  rw [h.inBuf_eq]
  split
  · exact h
  · exact (h.after_emitHost _).after_clearIn

theorem after_inAppendCheck (h : inboundHalf.Twin s₀ s₀' s s') (b : Byte) :
    inboundHalf.Twin s₀ s₀' (inAppendCheck b s) (inAppendCheck b s') := by
  unfold inAppendCheck
  rw [(h.after_inAppend b).inBuf_eq]
  split
  · exact (h.after_inAppend b).after_inFlush
  · exact h.after_inAppend b

theorem after_inSysexCont (h : inboundHalf.Twin s₀ s₀' s s') (b1 b2 b3 : Byte) :
    inboundHalf.Twin s₀ s₀' (inSysexCont b1 b2 b3 s) (inSysexCont b1 b2 b3 s') :=
  (((h.after_inAppendCheck b1).after_inAppendCheck b2).after_inAppendCheck b3).after_writeInMode .accumulating

theorem after_inSysexEnd (h : inboundHalf.Twin s₀ s₀' s s') (b1 b2 b3 : Byte) :
    inboundHalf.Twin s₀ s₀' (inSysexEnd b1 b2 b3 s) (inSysexEnd b1 b2 b3 s') :=
  (((h.after_inAppendCheck b1).after_inAppendCheck b2).after_inAppend b3).after_inFlush.after_writeInMode .idle

/-- InPacket reads the control byte only, so it picks the same packet operation in both runs (R154). -/
theorem after_inPacket (h : inboundHalf.Twin s₀ s₀' s s') (pkt : Packet) :
    inboundHalf.Twin s₀ s₀' (inPacket pkt s) (inPacket pkt s') := by
  have hend := h.after_inSysexEnd pkt.p1 pkt.p2 pkt.p3
  unfold inPacket
  split_ifs
  · exact h.after_inSysexCont ..
  · exact hend
  · exact hend
  · exact hend
  · exact h.after_emitHost _

theorem after_inPackets (h : inboundHalf.Twin s₀ s₀' s s') (ps : List Packet) :
    inboundHalf.Twin s₀ s₀' (inPackets ps s) (inPackets ps s') := by
  induction ps generalizing s s' with
  | nil => exact h
  | cons pkt ps ih => exact ih (h.after_inPacket pkt)

end Inbound

end Half.Twin

/-! ## Every operation of a half -/

section Operations

variable {i : Instr} {s s' t : State}

/-- Every outbound operation completes, and its runs from states that agree on what the half reads are twins. -/
theorem exec_outbound_twin (hi : isOutbound i.op = true) (hr : outboundHalf.reads s = outboundHalf.reads s') :
    ∃ t t', exec i s = .next t ∧ exec i s' = .next t' ∧ outboundHalf.Twin s s' t t' := by
  have h : outboundHalf.Twin s s' s s' := .start hr
  cases i with
  | outSysexWord w => exact ⟨_, _, rfl, rfl, h.after_outBytes (lanes w)⟩
  | outChannel w => exact ⟨_, _, rfl, rfl, h.after_queuePackets [channelPacket w]⟩
  | byteOpen => exact ⟨_, _, rfl, rfl, h.after_byteOpen⟩
  | byteSkip b => exact ⟨_, _, rfl, rfl, h⟩
  | byteData b => exact ⟨_, _, rfl, rfl, h.after_byteData b⟩
  | byteTerm b => exact ⟨_, _, rfl, rfl, h.after_byteTerm b⟩
  | batchEnd => exact ⟨_, _, rfl, rfl, h.after_writeQueue⟩
  | flushForced => exact ⟨_, _, rfl, rfl, h.after_flushForced⟩
  | flushTerminal => exact ⟨_, _, rfl, rfl, h.after_flushTerminal⟩
  | outBatch ws => exact ⟨_, _, rfl, rfl, (h.after_outEvents ws).after_writeQueue⟩
  | inSysexCont | inSysexEnd1 | inSysexEnd2 | inSysexEnd3 | inEvent | chunk | iterate | shutdown | reset
  | inFlush => cases hi

/-- CHUNK's tests read the transport's result only (R151 to R153), so two runs are refused alike or are twins. -/
theorem chunk_twin {p : Params} (r : ReadResult) (h : inboundHalf.Twin s s' s s') :
    (∃ e, chunk p r s = .refused e ∧ chunk p r s' = .refused e) ∨
    ∃ t t', chunk p r s = .next t ∧ chunk p r s' = .next t' ∧ inboundHalf.Twin s s' t t' := by
  unfold chunk
  split_ifs
  · exact .inr ⟨_, _, rfl, rfl, h⟩
  · exact .inl ⟨_, rfl, rfl⟩
  · exact .inl ⟨_, rfl, rfl⟩
  · exact .inr ⟨_, _, rfl, rfl, h.after_inPackets _⟩

/-- The runs of an inbound operation from states that agree on what the half reads are refused alike or are twins. -/
theorem exec_inbound_twin (hi : isInbound i.op = true) (hr : inboundHalf.reads s = inboundHalf.reads s') :
    (∃ e, exec i s = .refused e ∧ exec i s' = .refused e) ∨
    ∃ t t', exec i s = .next t ∧ exec i s' = .next t' ∧ inboundHalf.Twin s s' t t' := by
  have h : inboundHalf.Twin s s' s s' := .start hr
  cases i with
  | inSysexCont b1 b2 b3 => exact .inr ⟨_, _, rfl, rfl, h.after_inSysexCont b1 b2 b3⟩
  | inSysexEnd1 b1 b2 b3 => exact .inr ⟨_, _, rfl, rfl, h.after_inSysexEnd b1 b2 b3⟩
  | inSysexEnd2 b1 b2 b3 => exact .inr ⟨_, _, rfl, rfl, h.after_inSysexEnd b1 b2 b3⟩
  | inSysexEnd3 b1 b2 b3 => exact .inr ⟨_, _, rfl, rfl, h.after_inSysexEnd b1 b2 b3⟩
  | inEvent cb b1 b2 b3 => exact .inr ⟨_, _, rfl, rfl, h.after_emitHost (eventWord b1 b2 b3)⟩
  | chunk r => exact chunk_twin r h
  | inFlush => exact .inr ⟨_, _, rfl, rfl, h.after_inFlush⟩
  | outSysexWord | outChannel | byteOpen | byteSkip | byteData | byteTerm | batchEnd | flushForced | flushTerminal
  | outBatch | iterate | shutdown | reset => cases hi

/-- The frame of the outbound half: a run is its own twin. -/
theorem exec_outbound_leaves (hi : isOutbound i.op = true) (ht : exec i s = .next t) :
    outboundHalf.leaves t = outboundHalf.leaves s := by
  obtain ⟨u, u', hu, -, htwin⟩ := exec_outbound_twin hi (rfl : outboundHalf.reads s = _)
  cases ht.symm.trans hu
  exact htwin.leaves

/-- The frame of the inbound half: a run is its own twin. -/
theorem exec_inbound_leaves (hi : isInbound i.op = true) (ht : exec i s = .next t) :
    inboundHalf.leaves t = inboundHalf.leaves s := by
  obtain ⟨e, he, -⟩ | ⟨u, u', hu, -, htwin⟩ := exec_inbound_twin hi (rfl : inboundHalf.reads s = _)
  · cases ht.symm.trans he
  · cases ht.symm.trans hu
    exact htwin.leaves

end Operations

/-! ## The statements -/

/-- Settles O50: two runs of an outbound operation from one outbound state are twins. -/
theorem outboundReadsOnlyOutboundState : Obligations.OutboundReadsOnlyOutboundState := by
  intro i s s' hi hview hcells
  obtain ⟨t, t', ht, ht', htwin⟩ := exec_outbound_twin hi (Prod.ext hview hcells)
  obtain ⟨calls, hc, hc'⟩ := htwin.emits
  exact ⟨t, t', calls, ht, ht', congrArg Prod.fst htwin.reads, hc, hc'⟩

/-- Settles O51: two runs of an inbound operation from one inbound state are refused alike or are twins. -/
theorem inboundReadsOnlyInboundState : Obligations.InboundReadsOnlyInboundState := by
  intro i s s' hi hview
  obtain href | ⟨t, t', ht, ht', htwin⟩ := exec_inbound_twin hi hview
  · exact .inl href
  · obtain ⟨ws, hw, hw'⟩ := htwin.emits
    exact .inr ⟨t, t', ws, ht, ht', htwin.reads, hw, hw'⟩

/-- Settles O49: the frames of the two halves, field by field. -/
theorem halvesWriteOnlyTheirOwnState : Obligations.HalvesWriteOnlyTheirOwnState := by
  intro i s t ht
  refine ⟨fun hi => ?_, fun hi => ?_⟩
  · simpa only [outboundHalf, Prod.mk.injEq] using exec_outbound_leaves hi ht
  · simpa only [inboundHalf, Prod.mk.injEq] using exec_inbound_leaves hi ht

end Sys2Proof.Machine

namespace Sys2Proof.Machine

/-! ## What one operation can do, and what a decoded one is like -/

section Operations

variable {i : Instr} {s t : State}

/-- ITERATE answers a next state by running the batch and then the read, or by stopping at a shutdown request (R191). -/
theorem exec_iterate_next_cases {ws : List Word} {r : ReadResult} (h : exec (.iterate ws r) s = .next t) :
    (∃ u, s.runState = .running ∧ s.shutdownReq = false ∧
      exec (.outBatch ws) s = .next u ∧ exec (.chunk r) u = .next t) ∨
    (s.runState = .running ∧ s.shutdownReq = true ∧ t = stopRun s) := by
  change iterate hardware ws r s = .next t at h
  obtain ⟨-, e⟩ | ⟨hrun, hreq, e⟩ | ⟨hrun, hreq, e⟩ := iterate_spec hardware ws r s <;> rw [e] at h
  · cases h
  · cases h
    exact .inr ⟨hrun, hreq, rfl⟩
  · exact .inl ⟨_, hrun, hreq, rfl, h⟩

/-- An operation answers a next state as an operation of one half, as one of the two paths of ITERATE, or as one of the
two writes of the loop's state (R57). -/
theorem exec_next_cases (h : exec i s = .next t) :
    (isOutbound i.op = true ∨ isInbound i.op = true) ∨
    (∃ ws r u, i = .iterate ws r ∧ s.runState = .running ∧ s.shutdownReq = false ∧
      exec (.outBatch ws) s = .next u ∧ exec (.chunk r) u = .next t) ∨
    (∃ ws r, i = .iterate ws r ∧ s.runState = .running ∧ s.shutdownReq = true ∧ t = stopRun s) ∨
    (i = .shutdown ∧ t = raiseShutdown s) ∨ (i = .reset ∧ t = restart s) := by
  cases i with
  | outSysexWord | outChannel | byteOpen | byteSkip | byteData | byteTerm | batchEnd | flushForced | flushTerminal
  | outBatch => exact .inl (.inl rfl)
  | inSysexCont | inSysexEnd1 | inSysexEnd2 | inSysexEnd3 | inEvent | chunk | inFlush => exact .inl (.inr rfl)
  | iterate ws r =>
    obtain ⟨u, hu⟩ | hstop := exec_iterate_next_cases h
    · exact .inr (.inl ⟨ws, r, u, rfl, hu⟩)
    · exact .inr (.inr (.inl ⟨ws, r, rfl, hstop⟩))
  | shutdown =>
    cases h
    exact .inr (.inr (.inr (.inl ⟨rfl, rfl⟩)))
  | reset =>
    cases h
    exact .inr (.inr (.inr (.inr ⟨rfl, rfl⟩)))

/-- The state of the loop and the inputs to come are outside both halves. -/
theorem exec_half_frame (hi : isOutbound i.op = true ∨ isInbound i.op = true) (h : exec i s = .next t) :
    t.loopView = s.loopView ∧ t.input = s.input := by
  obtain hi | hi := hi
  · exact ⟨congrArg (·.2.1) (exec_outbound_leaves hi h), congrArg (·.2.2.1) (exec_outbound_leaves hi h)⟩
  · exact ⟨congrArg (·.2.1) (exec_inbound_leaves hi h), congrArg (·.2.2.1) (exec_inbound_leaves hi h)⟩

theorem exec_outbound_inboundView (hi : isOutbound i.op = true) (h : exec i s = .next t) :
    t.inboundView = s.inboundView :=
  congrArg (·.1) (exec_outbound_leaves hi h)

theorem exec_inbound_outboundView (hi : isInbound i.op = true) (h : exec i s = .next t) :
    t.outboundView = s.outboundView :=
  congrArg (·.1) (exec_inbound_leaves hi h)

end Operations

/-- The classification only gives operations that fit the mode it reads (R76 to R79). -/
theorem decode_wfIn (m : Mode) (tok : Token) : (decode m tok).wfIn m = true := by
  cases tok with
  | packet p =>
    simp only [decode, decodePacket]
    split_ifs <;> simp_all [Instr.wfIn, isSysexControl]
  | word w =>
    simp only [decode, decodeWord]
    split
    case isTrue h => simp [Instr.wfIn, h]
    case isFalse h => cases m <;> simp_all [Instr.wfIn]
  | byte b =>
    cases m
    · by_cases h : b = opener <;> simp [decode, decodeByte, Instr.wfIn, h]
    · cases h : isTerminator b <;> simp [decode, decodeByte, Instr.wfIn, h]
  | event e => cases e <;> rfl

/-- A decoded operation still names its token (R70 to R79). -/
theorem encode_decode (m : Mode) (tok : Token) : encode (decode m tok) = some tok := by
  cases tok with
  | packet p =>
    obtain ⟨cb, b1, b2, b3⟩ := p
    simp only [decode, decodePacket]
    split_ifs <;> simp [encode, *]
  | word w =>
    simp only [decode, decodeWord]
    split <;> rfl
  | byte b =>
    cases m
    · by_cases h : b = opener
      · rw [h]; rfl
      · simp only [decode, decodeByte, if_neg h, encode]
    · cases h : isTerminator b <;> simp [decode, decodeByte, encode, h]
  | event e => cases e <;> rfl

theorem takenAlways_iff {tok : Token} : takenAlways tok = true ↔ tok = .event .reset ∨ tok = .event .shutdown := by
  unfold takenAlways
  split <;> simp_all

/-! ## The invariant (R23, R24, R30, R197)

Each half keeps its own part of the invariant; the rest is framed. -/

/-- The outbound part of the invariant: at most 47 bytes are buffered (R23), and none while `Idle` (R24). -/
def State.OutInv (s : State) : Prop :=
  s.outBuf.length ≤ 47 ∧ (s.outMode = .idle → s.outBuf = [])

/-- The inbound part of the invariant (R30). -/
def State.InInv (s : State) : Prop :=
  s.inBuf.length ≤ 3

theorem inv_iff {s : State} :
    s.Inv ↔ s.OutInv ∧ s.InInv ∧ (s.runState = .stopped → s.shutdownReq = true) :=
  and_assoc.symm

theorem outInv_congr {s t : State} (h : t.outboundView = s.outboundView) : t.OutInv ↔ s.OutInv := by
  simp only [Prod.mk.injEq] at h
  obtain ⟨hmode, hbuf, -⟩ := h
  simp only [State.OutInv, hmode, hbuf]

theorem inInv_congr {s t : State} (h : t.inboundView = s.inboundView) : t.InInv ↔ s.InInv := by
  simp only [Prod.mk.injEq] at h
  simp only [State.InInv, h.2]

theorem outInv_of_outBuf_nil {s : State} (h : s.outBuf = []) : s.OutInv := by
  simp [State.OutInv, h]

section OutInv

variable {s : State}

/-- BYTE_DATA in `Accumulating`: the append that would make 48 bytes empties the buffer (R107, R112). -/
theorem outInv_byteData (b : Byte) (hmode : s.outMode = .accumulating) (h : s.OutInv) :
    (byteData hardware b s).OutInv := by
  obtain ⟨hne, e⟩ | ⟨-, e⟩ := byteData_spec hardware b s <;> rw [e]
  · change s.outBuf.length + 1 ≠ 48 at hne
    have hlen := h.1
    refine ⟨?_, by simp [hmode]⟩
    simp only [List.length_append, List.length_singleton]
    omega
  · exact outInv_of_outBuf_nil rfl

theorem outInv_byteOpen (h : s.OutInv) : (byteOpen hardware s).OutInv :=
  outInv_byteData (s := openOutMode s) opener rfl ⟨h.1, nofun⟩

theorem outInv_byteTerm (b : Byte) : (byteTerm hardware b s).OutInv := by
  rw [byteTerm_spec]
  exact outInv_of_outBuf_nil rfl

theorem outInv_flushForced (h : s.OutInv) : (flushForced hardware s).OutInv := by
  obtain ⟨-, e⟩ | ⟨-, e⟩ := flushForced_spec hardware s <;> rw [e]
  · exact h
  · exact outInv_of_outBuf_nil rfl

theorem outInv_flushTerminal (h : s.OutInv) : (flushTerminal hardware s).OutInv := by
  obtain ⟨-, e⟩ | ⟨-, e⟩ := flushTerminal_spec hardware s <;> rw [e]
  · exact h
  · exact outInv_of_outBuf_nil rfl

theorem outInv_writeQueue (h : s.OutInv) : (writeQueue s).OutInv := by
  obtain ⟨-, e⟩ | ⟨-, e⟩ := writeQueue_spec s <;> rw [e] <;> exact h

theorem outInv_outByte (b : Byte) (h : s.OutInv) : (outByte hardware b s).OutInv := by
  obtain ⟨-, -, e⟩ | ⟨-, -, e⟩ | ⟨-, -, e⟩ | ⟨hmode, -, e⟩ := outByte_spec hardware b s <;> rw [e]
  · exact outInv_byteOpen h
  · exact h
  · exact outInv_byteTerm b
  · exact outInv_byteData b hmode h

theorem outInv_outBytes (bs : List Byte) (h : s.OutInv) : (outBytes hardware bs s).OutInv := by
  induction bs generalizing s with
  | nil => exact h
  | cons b bs ih => exact ih (outInv_outByte b h)

theorem outInv_outEvents (ws : List Word) (h : s.OutInv) : (outEvents hardware ws s).OutInv := by
  induction ws generalizing s with
  | nil => exact h
  | cons w ws ih =>
    refine ih ?_
    obtain ⟨-, -, e⟩ | ⟨-, e⟩ := outEvent_spec hardware w s <;> rw [e]
    · exact h
    · exact outInv_outBytes (lanes w) h

end OutInv

section InInv

variable {s : State}

theorem inFlush_inBuf (s : State) : (inFlush s).inBuf = [] := by
  obtain ⟨h, e⟩ | ⟨-, e⟩ := inFlush_spec s <;> rw [e]
  exact h

/-- InAppendCheck: the append that would make 4 bytes empties the buffer (R155). -/
theorem inInv_inAppendCheck (b : Byte) (h : s.InInv) : (inAppendCheck b s).InInv := by
  obtain ⟨hne, e⟩ | ⟨-, e⟩ := inAppendCheck_spec b s <;> rw [e]
  · simp only [State.InInv, List.length_append, List.length_singleton] at h ⊢
    omega
  · simp [State.InInv]

theorem inInv_inSysexCont (b1 b2 b3 : Byte) (h : s.InInv) : (inSysexCont b1 b2 b3 s).InInv :=
  inInv_inAppendCheck b3 (inInv_inAppendCheck b2 (inInv_inAppendCheck b1 h))

theorem inInv_inFlush : (inFlush s).InInv := by
  simp [State.InInv, inFlush_inBuf]

theorem inInv_inSysexEnd (b1 b2 b3 : Byte) : (inSysexEnd b1 b2 b3 s).InInv :=
  inInv_inFlush (s := inAppend b3 (inAppendCheck b2 (inAppendCheck b1 s)))

theorem inInv_inPackets (ps : List Packet) (h : s.InInv) : (inPackets ps s).InInv := by
  induction ps generalizing s with
  | nil => exact h
  | cons pkt ps ih =>
    refine ih ?_
    obtain ⟨-, e⟩ | ⟨-, e⟩ | ⟨-, e⟩ := inPacket_spec pkt s <;> rw [e]
    · exact inInv_inSysexCont _ _ _ h
    · exact inInv_inSysexEnd ..
    · exact h

/-- A chunk that is taken is some packets, none for a failed read (R150, R151). -/
theorem chunk_next {p : Params} {r : ReadResult} {t : State} (h : chunk p r s = .next t) :
    ∃ ps, t = inPackets ps s := by
  obtain ⟨-, e⟩ | ⟨-, -, e⟩ | ⟨-, -, -, e⟩ | ⟨-, -, -, e⟩ := chunk_spec p r s <;> rw [e] at h <;> cases h
  · exact ⟨[], rfl⟩
  · exact ⟨_, rfl⟩

end InInv

section Inv

variable {i : Instr} {s t : State}

/-- The outbound half keeps its part; BYTE_DATA does so only in the mode that its classification asks for. -/
theorem exec_keeps_outInv (hi : isOutbound i.op = true) (hwf : i.wfIn s.outMode = true) (hs : s.OutInv)
    (h : exec i s = .next t) : t.OutInv := by
  cases i with
  | outSysexWord w => cases h; exact outInv_outBytes (lanes w) hs
  | outChannel w => cases h; exact hs
  | byteOpen => cases h; exact outInv_byteOpen hs
  | byteSkip b => cases h; exact hs
  | byteData b =>
    have hmode : s.outMode = .accumulating := by simp_all [Instr.wfIn]
    cases h; exact outInv_byteData b hmode hs
  | byteTerm b => cases h; exact outInv_byteTerm b
  | batchEnd => cases h; exact outInv_writeQueue hs
  | flushForced => cases h; exact outInv_flushForced hs
  | flushTerminal => cases h; exact outInv_flushTerminal hs
  | outBatch ws => cases h; exact outInv_writeQueue (outInv_outEvents ws hs)
  | inSysexCont | inSysexEnd1 | inSysexEnd2 | inSysexEnd3 | inEvent | chunk | iterate | shutdown | reset
  | inFlush => cases hi

/-- The inbound half keeps its part. -/
theorem exec_keeps_inInv (hi : isInbound i.op = true) (hs : s.InInv) (h : exec i s = .next t) : t.InInv := by
  cases i with
  | inSysexCont b1 b2 b3 => cases h; exact inInv_inSysexCont b1 b2 b3 hs
  | inSysexEnd1 b1 b2 b3 | inSysexEnd2 b1 b2 b3 | inSysexEnd3 b1 b2 b3 => cases h; exact inInv_inSysexEnd b1 b2 b3
  | inEvent cb b1 b2 b3 => cases h; exact hs
  | chunk r =>
    obtain ⟨ps, rfl⟩ := chunk_next h
    exact inInv_inPackets ps hs
  | inFlush => cases h; exact inInv_inFlush
  | outSysexWord | outChannel | byteOpen | byteSkip | byteData | byteTerm | batchEnd | flushForced | flushTerminal
  | outBatch | iterate | shutdown | reset => cases hi

theorem exec_outbound_keeps_inv (hi : isOutbound i.op = true) (hwf : i.wfIn s.outMode = true) (hs : s.Inv)
    (h : exec i s = .next t) : t.Inv := by
  obtain ⟨hout, hin, hstop⟩ := inv_iff.mp hs
  obtain ⟨hrun, hreq⟩ := Prod.mk.inj (exec_half_frame (.inl hi) h).1
  exact inv_iff.mpr ⟨exec_keeps_outInv hi hwf hout h, (inInv_congr (exec_outbound_inboundView hi h)).mpr hin,
    by rwa [hrun, hreq]⟩

theorem exec_inbound_keeps_inv (hi : isInbound i.op = true) (hs : s.Inv) (h : exec i s = .next t) : t.Inv := by
  obtain ⟨hout, hin, hstop⟩ := inv_iff.mp hs
  obtain ⟨hrun, hreq⟩ := Prod.mk.inj (exec_half_frame (.inr hi) h).1
  exact inv_iff.mpr ⟨(outInv_congr (exec_inbound_outboundView hi h)).mpr hout, exec_keeps_inInv hi hin h,
    by rwa [hrun, hreq]⟩

/-- Every operation that the classification can pick in the mode of the state keeps the invariant. -/
theorem exec_keeps_inv (hwf : i.wfIn s.outMode = true) (hs : s.Inv) (h : exec i s = .next t) : t.Inv := by
  obtain (hi | hi) | ⟨ws, r, u, -, -, -, hbatch, hread⟩ | ⟨ws, r, -, -, hreq, rfl⟩ | ⟨-, rfl⟩ | ⟨-, rfl⟩ :=
    exec_next_cases h
  · exact exec_outbound_keeps_inv hi hwf hs h
  · exact exec_inbound_keeps_inv hi hs h
  · exact exec_inbound_keeps_inv rfl (exec_outbound_keeps_inv rfl rfl hs hbatch) hread
  · obtain ⟨hlen, hidle, hin, -⟩ := hs
    exact ⟨hlen, hidle, hin, fun _ => hreq⟩
  · obtain ⟨hlen, hidle, hin, -⟩ := hs
    exact ⟨hlen, hidle, hin, fun _ => rfl⟩
  · simp [State.Inv]

end Inv

/-- Settles O53: the operation of a step is one that the classification picks in the state's mode, and such operations
keep the invariant. -/
theorem stepKeepsTheInvariant : Obligations.StepKeepsTheInvariant := by
  intro s t hs h
  obtain ⟨-, -, hx⟩ | ⟨tok, rest, -, -, hx⟩ := step_next_cases h
  · exact exec_keeps_inv rfl hs hx
  · exact exec_keeps_inv (s := { s with input := rest }) (decode_wfIn s.outMode tok) hs hx

end Sys2Proof.Machine

namespace Sys2Proof.Machine

/-! ## The loop's own state -/

/-- Settles O45: after `Stopped` only RESET and SHUTDOWN are taken, and SHUTDOWN writes the flag alone, which the
invariant has set already. -/
theorem stoppedStaysStopped : Obligations.StoppedStaysStopped := by
  intro s t h hstop hhead
  obtain ⟨-, hrun, -⟩ | ⟨tok, rest, hi, htake, hx⟩ := step_next_cases h
  · cases hstop.symm.trans hrun
  obtain rfl | rfl := takenAlways_iff.mp (htake.resolve_left (by simp [hstop]))
  · simp [hi] at hhead
  · have ht : t = raiseShutdown { s with input := rest } := by cases hx; rfl
    subst ht
    refine ⟨hstop, rfl, rfl, rfl, fun hs => ?_⟩
    obtain ⟨-, -, -, hreq⟩ := hs
    simp [hreq hstop]

/-- What an operation does to the shutdown flag (R35). -/
theorem exec_shutdownReq {i : Instr} {s t : State} (h : exec i s = .next t) :
    (i = .shutdown ∧ t.shutdownReq = true) ∨ (i = .reset ∧ t.shutdownReq = false) ∨
    t.shutdownReq = s.shutdownReq := by
  obtain hi | ⟨ws, r, u, -, -, -, hbatch, hread⟩ | ⟨ws, r, -, -, -, rfl⟩ | ⟨hi, rfl⟩ | ⟨hi, rfl⟩ :=
    exec_next_cases h
  · exact .inr (.inr (congrArg Prod.snd (exec_half_frame hi h).1))
  · have hloop : t.loopView = s.loopView :=
      (exec_half_frame (.inr rfl) hread).1.trans (exec_half_frame (.inl rfl) hbatch).1
    exact .inr (.inr (congrArg Prod.snd hloop))
  · exact .inr (.inr rfl)
  · exact .inl ⟨hi, rfl⟩
  · exact .inr (.inl ⟨hi, rfl⟩)

/-- Only the signal's own token decodes to SHUTDOWN. -/
theorem decode_eq_shutdown {m : Mode} {tok : Token} (h : decode m tok = .shutdown) : tok = .event .shutdown :=
  Option.some.inj ((encode_decode m tok).symm.trans (congrArg encode h))

/-- Only the reset's own token decodes to RESET. -/
theorem decode_eq_reset {m : Mode} {tok : Token} (h : decode m tok = .reset) : tok = .event .reset :=
  Option.some.inj ((encode_decode m tok).symm.trans (congrArg encode h))

/-- Settles O47: what `exec` does to the flag, with the operation traced back to its token. -/
theorem onlyShutdownAndResetWriteTheFlag : Obligations.OnlyShutdownAndResetWriteTheFlag := by
  intro s t h
  obtain ⟨-, -, hx⟩ | ⟨tok, rest, hi, -, hx⟩ := step_next_cases h
  · obtain ⟨hi, -⟩ | ⟨hi, -⟩ | hreq := exec_shutdownReq hx
    · cases hi
    · cases hi
    · exact ⟨fun hs _ => hreq.trans hs, fun hs _ => hreq.trans hs⟩
  · obtain ⟨hdec, hreq⟩ | ⟨hdec, hreq⟩ | hreq := exec_shutdownReq hx
    · simp [hi, hreq, decode_eq_shutdown hdec]
    · simp [hi, hreq, decode_eq_reset hdec]
    · exact ⟨fun hs _ => hreq.trans hs, fun hs _ => hreq.trans hs⟩

/-! ## The inputs to come and the packet queue (R25, R36) -/

/-- No operation reads the inputs to come past its own token, so none of them is lost or added. -/
theorem exec_input {i : Instr} {s t : State} (h : exec i s = .next t) : t.input = s.input := by
  obtain hi | ⟨ws, r, u, -, -, -, hbatch, hread⟩ | ⟨ws, r, -, -, -, rfl⟩ | ⟨-, rfl⟩ | ⟨-, rfl⟩ :=
    exec_next_cases h
  · exact (exec_half_frame hi h).2
  · exact (exec_half_frame (.inr rfl) hread).2.trans (exec_half_frame (.inl rfl) hbatch).2
  · rfl
  · rfl
  · rfl

theorem exec_inbound_outQ {i : Instr} {s t : State} (hi : isInbound i.op = true) (h : exec i s = .next t) :
    t.outQ = s.outQ :=
  congrArg (·.2.2) (exec_inbound_outboundView hi h)

/-- A batch, given whole or only ended, leaves nothing queued (R116). -/
theorem exec_batch_outQ {i : Instr} {s t : State} (hi : i = .batchEnd ∨ ∃ ws, i = .outBatch ws)
    (h : exec i s = .next t) : t.outQ = [] := by
  obtain rfl | ⟨ws, rfl⟩ := hi <;> cases h <;> exact writeQueue_outQ _

/-- The operation of a whole event leaves the queue empty: either it ends a batch, or it queues nothing. -/
theorem exec_event_outQ {e : Event} {s t : State} (hq : s.outQ = []) (h : exec (decodeEvent e) s = .next t) :
    t.outQ = [] := by
  cases e with
  | batch ws => exact exec_batch_outQ (.inr ⟨ws, rfl⟩) h
  | batchEnd => exact exec_batch_outQ (.inl rfl) h
  | chunk r => exact (exec_inbound_outQ rfl h).trans hq
  | iter ws r =>
    obtain ⟨u, -, -, hbatch, hread⟩ | ⟨-, -, rfl⟩ := exec_iterate_next_cases h
    · exact (exec_inbound_outQ rfl hread).trans (exec_batch_outQ (.inr ⟨ws, rfl⟩) hbatch)
    · exact hq
  | shutdown => cases h; exact hq
  | reset => cases h; rfl

/-- Settles O55: when every token is a whole event, so is the one a step takes, and an idle iteration is one too. -/
theorem stepLeavesTheQueueEmpty : Obligations.StepLeavesTheQueueEmpty := by
  rintro s t ⟨hevents, hq⟩ h
  obtain ⟨-, -, hx⟩ | ⟨tok, rest, hi, -, hx⟩ := step_next_cases h
  · exact ⟨by rwa [exec_input hx], exec_event_outQ (e := .iter [] .timedOut) hq hx⟩
  · obtain ⟨htok, hrest⟩ : Token.isEvent tok = true ∧ rest.all Token.isEvent = true := by simpa [hi] using hevents
    cases tok with
    | event e => exact ⟨by rwa [exec_input hx], exec_event_outQ (s := { s with input := rest }) hq hx⟩
    | packet | word | byte => cases htok

/-! ## The decoder on the bytes of one token -/

theorem decodeBytes_word (m : Mode) (w : Word) (rest : List Byte) :
    decodeBytes .hostWord m (lanes w ++ rest) = .ok (decode m (.word w)) rest :=
  congrArg (fun v => Decoded.ok (decodeWord m v) rest) (packWord_lanes w)

/-- Settles O2: a running step takes its token, and the token decodes as its bytes do. -/
theorem stepRunsTheDecodedToken : Obligations.StepRunsTheDecodedToken := by
  intro s rest i hrun
  refine ⟨fun p hi hd => ?_, fun w hi hd => ?_, fun b hi hd => ?_, fun e hi hd => ?_⟩ <;>
    rw [step_of_input_cons hi (.inl hrun)]
  · cases hd
    rfl
  · cases (decodeBytes_word s.outMode w []).symm.trans hd
    rfl
  · cases hd
    rfl
  · rw [← hd]
    rfl

end Sys2Proof.Machine

namespace Sys2Proof.Machine

/-! ## The inbound mode is read by nothing (R28, R32)

`writeInMode m s` is `s` with another inbound mode. The outbound operations carry it through; of the inbound ones the
SysEx packets overwrite it, and the others carry it through. -/

section InMode

variable (p : Params) (m : Mode) (s : State)

/-! ### The updates -/

@[simp] theorem openOutMode_writeInMode : openOutMode (writeInMode m s) = writeInMode m (openOutMode s) := rfl
@[simp] theorem closeOutMode_writeInMode : closeOutMode (writeInMode m s) = writeInMode m (closeOutMode s) := rfl
@[simp] theorem queuePackets_writeInMode (ps : List Packet) :
    queuePackets ps (writeInMode m s) = writeInMode m (queuePackets ps s) := rfl
@[simp] theorem appendOut_writeInMode (b : Byte) : appendOut b (writeInMode m s) = writeInMode m (appendOut b s) := rfl
@[simp] theorem clearOut_writeInMode : clearOut (writeInMode m s) = writeInMode m (clearOut s) := rfl
@[simp] theorem emitHost_writeInMode (w : Word) : emitHost w (writeInMode m s) = writeInMode m (emitHost w s) := rfl
@[simp] theorem inAppend_writeInMode (b : Byte) : inAppend b (writeInMode m s) = writeInMode m (inAppend b s) := rfl
@[simp] theorem clearIn_writeInMode : clearIn (writeInMode m s) = writeInMode m (clearIn s) := rfl
@[simp] theorem writeInMode_writeInMode (m' : Mode) : writeInMode m' (writeInMode m s) = writeInMode m' s := rfl

/-! ### Outbound -/

@[simp] theorem writeQueue_writeInMode : writeQueue (writeInMode m s) = writeInMode m (writeQueue s) := by
  by_cases h : s.outQ = [] <;> simp [writeQueue, h, writeInMode]

@[simp] theorem endFlush_writeInMode : endFlush p (writeInMode m s) = writeInMode m (endFlush p s) := by
  cases hp : p.writeGrouping <;> simp [hp]

@[simp] theorem viewDeadCells_writeInMode :
    viewDeadCells p (writeInMode m s) = writeInMode m (viewDeadCells p s) := by
  by_cases h : s.outBuf.length < p.outSysexMax <;> simp [viewDeadCells, h, writeInMode]

@[simp] theorem flushForced_writeInMode : flushForced p (writeInMode m s) = writeInMode m (flushForced p s) := by
  by_cases h : s.outBuf = [] <;> simp [flushForced, h]

@[simp] theorem flushTerminal_writeInMode :
    flushTerminal p (writeInMode m s) = writeInMode m (flushTerminal p s) := by
  by_cases h : s.outBuf = [] <;> simp [flushTerminal, h]

@[simp] theorem byteData_writeInMode (b : Byte) :
    byteData p b (writeInMode m s) = writeInMode m (byteData p b s) := by
  by_cases h : s.outBuf.length + 1 = p.outSysexMax <;> simp [byteData, h]

@[simp] theorem byteOpen_writeInMode : byteOpen p (writeInMode m s) = writeInMode m (byteOpen p s) := by
  cases h : p.openerInBuffer <;> simp [byteOpen, h]

@[simp] theorem byteTerm_writeInMode (b : Byte) :
    byteTerm p b (writeInMode m s) = writeInMode m (byteTerm p b s) := by
  simp [byteTerm]

/-- OutByte reads the outbound mode only (R104). -/
@[simp] theorem outByte_writeInMode (b : Byte) : outByte p b (writeInMode m s) = writeInMode m (outByte p b s) := by
  simp only [outByte, writeInMode_outMode]
  cases s.outMode
  · by_cases h : b = opener <;> simp [h, byteSkip]
  · cases h : isTerminator b <;> simp

@[simp] theorem outBytes_writeInMode (bs : List Byte) :
    outBytes p bs (writeInMode m s) = writeInMode m (outBytes p bs s) := by
  induction bs generalizing s with
  | nil => rfl
  | cons b bs ih => simp [outBytes, ih]

@[simp] theorem outEvent_writeInMode (w : Word) : outEvent p w (writeInMode m s) = writeInMode m (outEvent p w s) := by
  by_cases h : s.outMode = .idle ∧ lane w 0 ≠ opener <;>
    simp [outEvent, h, outChannel, queuePacket, outSysexWord]

@[simp] theorem outEvents_writeInMode (ws : List Word) :
    outEvents p ws (writeInMode m s) = writeInMode m (outEvents p ws s) := by
  induction ws generalizing s with
  | nil => rfl
  | cons w ws ih => simp [outEvents, ih]

@[simp] theorem outBatch_writeInMode (ws : List Word) :
    outBatch p ws (writeInMode m s) = writeInMode m (outBatch p ws s) := by
  simp [outBatch, batchEnd]

/-! ### Inbound -/

@[simp] theorem inFlush_writeInMode : inFlush (writeInMode m s) = writeInMode m (inFlush s) := by
  by_cases h : s.inBuf = [] <;> simp [inFlush, h]

@[simp] theorem inAppendCheck_writeInMode (b : Byte) :
    inAppendCheck b (writeInMode m s) = writeInMode m (inAppendCheck b s) := by
  by_cases h : s.inBuf.length + 1 = Config.inGroup <;> simp [inAppendCheck, h]

/-- The mode before a continuation is lost: the packet writes its own (R159). -/
@[simp] theorem inSysexCont_writeInMode (b1 b2 b3 : Byte) :
    inSysexCont b1 b2 b3 (writeInMode m s) = writeInMode .accumulating (inSysexCont b1 b2 b3 s) := by
  simp [inSysexCont]

/-- The mode before a terminal packet is lost: the packet writes its own (R159). -/
@[simp] theorem inSysexEnd_writeInMode (b1 b2 b3 : Byte) :
    inSysexEnd b1 b2 b3 (writeInMode m s) = writeInMode .idle (inSysexEnd b1 b2 b3 s) := by
  simp [inSysexEnd]

/-- A packet is classified by its control byte, and either overwrites the mode or carries it through. -/
theorem inPacket_writeInMode (pkt : Packet) :
    ∃ m', inPacket pkt (writeInMode m s) = writeInMode m' (inPacket pkt s) := by
  unfold inPacket
  split_ifs
  · exact ⟨.accumulating, inSysexCont_writeInMode ..⟩
  · exact ⟨.idle, inSysexEnd_writeInMode ..⟩
  · exact ⟨.idle, inSysexEnd_writeInMode ..⟩
  · exact ⟨.idle, inSysexEnd_writeInMode ..⟩
  · exact ⟨m, rfl⟩

theorem inPackets_writeInMode (ps : List Packet) :
    ∃ m', inPackets ps (writeInMode m s) = writeInMode m' (inPackets ps s) := by
  induction ps generalizing m s with
  | nil => exact ⟨m, rfl⟩
  | cons pkt ps ih =>
    obtain ⟨m₁, h⟩ := inPacket_writeInMode m s pkt
    obtain ⟨m₂, ih⟩ := ih m₁ (inPacket pkt s)
    exact ⟨m₂, by simp only [inPackets, h, ih]⟩

/-! ### Operations that may refuse -/

/-- Two results that differ in the inbound mode at most: both next states, or the same refusal. -/
def AlikeButInMode (r r' : Result) : Prop :=
  (∃ t m', r = .next t ∧ r' = .next (writeInMode m' t)) ∨ ∃ e, r = .refused e ∧ r' = .refused e

/-- An operation that completes from both states, and overwrites the mode or carries it through. -/
theorem AlikeButInMode.of_next {t t' : State} (m' : Mode) (h : t' = writeInMode m' t) :
    AlikeButInMode (.next t) (.next t') :=
  .inl ⟨t, m', rfl, congrArg _ h⟩

/-- CHUNK's tests read the transport's result only (R151 to R153). -/
theorem chunk_writeInMode (r : ReadResult) : AlikeButInMode (chunk p r s) (chunk p r (writeInMode m s)) := by
  unfold chunk
  split_ifs
  · exact .of_next m rfl
  · exact .inr ⟨_, rfl, rfl⟩
  · exact .inr ⟨_, rfl, rfl⟩
  · obtain ⟨m', h⟩ := inPackets_writeInMode m s (packetsOf r.bytes)
    exact .of_next m' h

/-- ITERATE reads the loop's state only, and then runs the batch and the read (R191). -/
theorem iterate_writeInMode (ws : List Word) (r : ReadResult) :
    AlikeButInMode (iterate p ws r s) (iterate p ws r (writeInMode m s)) := by
  simp only [iterate, writeInMode_runState, writeInMode_shutdownReq, outBatch_writeInMode]
  cases s.runState with
  | stopped => exact .inr ⟨_, rfl, rfl⟩
  | running =>
    cases s.shutdownReq with
    | true => exact .of_next m rfl
    | false => exact chunk_writeInMode p m (outBatch p ws s) r

end InMode

/-- Settles O52, operation by operation: each carries the inbound mode through or writes its own. -/
theorem inModeIsReadByNothing : Obligations.InModeIsReadByNothing := by
  intro i m s
  change AlikeButInMode (exec i s) (exec i (writeInMode m s))
  cases i with
  | inSysexCont b1 b2 b3 => exact .of_next .accumulating (inSysexCont_writeInMode m s b1 b2 b3)
  | inSysexEnd1 b1 b2 b3 | inSysexEnd2 b1 b2 b3 | inSysexEnd3 b1 b2 b3 =>
    exact .of_next .idle (inSysexEnd_writeInMode m s b1 b2 b3)
  | inEvent cb b1 b2 b3 => exact .of_next m rfl
  | outSysexWord w => exact .of_next m (outBytes_writeInMode hardware m s (lanes w))
  | outChannel w => exact .of_next m rfl
  | byteOpen => exact .of_next m (byteOpen_writeInMode hardware m s)
  | byteSkip b => exact .of_next m rfl
  | byteData b => exact .of_next m (byteData_writeInMode hardware m s b)
  | byteTerm b => exact .of_next m (byteTerm_writeInMode hardware m s b)
  | batchEnd => exact .of_next m (writeQueue_writeInMode m s)
  | chunk r => exact chunk_writeInMode hardware m s r
  | iterate ws r => exact iterate_writeInMode hardware m s ws r
  | shutdown => exact .of_next m rfl
  | reset => exact .of_next .idle rfl
  | flushForced => exact .of_next m (flushForced_writeInMode hardware m s)
  | flushTerminal => exact .of_next m (flushTerminal_writeInMode hardware m s)
  | inFlush => exact .of_next m (inFlush_writeInMode m s)
  | outBatch ws => exact .of_next m (outBatch_writeInMode hardware m s ws)

end Sys2Proof.Machine

namespace Sys2Proof.Machine

/-! ## The two write groupings side by side (R58, R117)

A flush may send the queue at once or leave it to the batch's end. Either way the bytes offered so far and the bytes
still queued, laid end to end, are the same, and they grow by queuing alone. -/

@[simp] theorem produced_queuePackets (ps : List Packet) (s : State) :
    produced (queuePackets ps s) = produced s ++ packetBytes ps := by
  simp [produced]

/-- WriteQueue moves bytes from the queue to the call, and produces none. -/
@[simp] theorem produced_writeQueue (s : State) : produced (writeQueue s) = produced s := by
  obtain ⟨-, e⟩ | ⟨-, e⟩ := writeQueue_spec s <;> rw [e]
  simp [produced, offered, writeCalls, packetBytes]

/-- Two outbound halves that go on alike whatever each has sent already: they have produced the same bytes, and agree
on all that a later byte reads. -/
structure SameOutput (s t : State) : Prop where
  outMode : s.outMode = t.outMode
  outBuf : s.outBuf = t.outBuf
  cellDraws : s.cellDraws = t.cellDraws
  produced : produced s = produced t

namespace SameOutput

section Updates

variable {s t : State}

theorem refl (s : State) : SameOutput s s :=
  ⟨rfl, rfl, rfl, rfl⟩

theorem after_openOutMode (h : SameOutput s t) : SameOutput (openOutMode s) (openOutMode t) :=
  { h with outMode := rfl }

theorem after_closeOutMode (h : SameOutput s t) : SameOutput (closeOutMode s) (closeOutMode t) :=
  { h with outMode := rfl }

theorem after_appendOut (h : SameOutput s t) (b : Byte) : SameOutput (appendOut b s) (appendOut b t) :=
  { h with outBuf := congrArg (· ++ [b]) h.outBuf }

theorem after_clearOut (h : SameOutput s t) : SameOutput (clearOut s) (clearOut t) :=
  { h with outBuf := rfl }

theorem after_queuePackets (h : SameOutput s t) (ps : List Packet) :
    SameOutput (queuePackets ps s) (queuePackets ps t) :=
  { h with produced := by simp [h.produced] }

theorem writeQueue_left (h : SameOutput s t) : SameOutput (writeQueue s) t := by
  have hp := (produced_writeQueue s).trans h.produced
  obtain ⟨-, e⟩ | ⟨-, e⟩ := writeQueue_spec s
  · rwa [e]
  · rw [e] at hp ⊢
    exact { h with produced := hp }

theorem symm (h : SameOutput s t) : SameOutput t s :=
  ⟨h.outMode.symm, h.outBuf.symm, h.cellDraws.symm, h.produced.symm⟩

theorem after_writeQueue (h : SameOutput s t) : SameOutput (writeQueue s) (writeQueue t) :=
  h.writeQueue_left.symm.writeQueue_left.symm

theorem endFlush_left (h : SameOutput s t) (p : Params) : SameOutput (endFlush p s) t := by
  cases hp : p.writeGrouping with
  | perBatch => simpa [hp] using h
  | perFlush => simpa [hp] using h.writeQueue_left

/-- The one place where the grouping is read: whether either flush sends its packets now makes no difference. -/
theorem after_endFlush (h : SameOutput s t) (p q : Params) : SameOutput (endFlush p s) (endFlush q t) :=
  ((h.endFlush_left p).symm.endFlush_left q).symm

theorem after_flushTerminal (h : SameOutput s t) (p q : Params) :
    SameOutput (flushTerminal p s) (flushTerminal q t) := by
  unfold flushTerminal
  rw [h.outBuf]
  split
  · exact h
  · exact (h.after_queuePackets _).after_clearOut.after_endFlush p q

theorem after_byteTerm (h : SameOutput s t) (p q : Params) (b : Byte) :
    SameOutput (byteTerm p b s) (byteTerm q b t) :=
  ((h.after_appendOut b).after_flushTerminal p q).after_closeOutMode

end Updates

/-! Two parameter sets that agree on the opener and on the buffer's maximum. -/

section Parameters

variable {p q : Params} (hopen : p.openerInBuffer = q.openerInBuffer) (hmax : p.outSysexMax = q.outSysexMax)
  {s t : State}

include hmax

theorem after_viewDeadCells (h : SameOutput s t) : SameOutput (viewDeadCells p s) (viewDeadCells q t) := by
  unfold viewDeadCells
  rw [h.outBuf, hmax]
  split
  · exact ⟨h.outMode, rfl, congrArg (· + 1) h.cellDraws, h.produced⟩
  · exact h

theorem after_flushForced (h : SameOutput s t) : SameOutput (flushForced p s) (flushForced q t) := by
  have hps : forcedPackets p = forcedPackets q := by unfold forcedPackets; rw [hmax]
  unfold flushForced
  rw [h.outBuf, h.cellDraws, hps]
  split
  · exact h
  · exact ((h.after_queuePackets _).after_viewDeadCells hmax).after_clearOut.after_endFlush p q

theorem after_byteData (h : SameOutput s t) (b : Byte) : SameOutput (byteData p b s) (byteData q b t) := by
  unfold byteData
  rw [(h.after_appendOut b).outBuf, hmax]
  split
  · exact (h.after_appendOut b).after_flushForced hmax
  · exact h.after_appendOut b

include hopen

theorem after_byteOpen (h : SameOutput s t) : SameOutput (byteOpen p s) (byteOpen q t) := by
  unfold byteOpen
  rw [hopen]
  split
  · exact h.after_openOutMode.after_byteData hmax opener
  · exact h.after_openOutMode

theorem after_outByte (h : SameOutput s t) (b : Byte) : SameOutput (outByte p b s) (outByte q b t) := by
  unfold outByte
  rw [h.outMode]
  split
  · split
    · exact h.after_byteOpen hopen hmax
    · exact h
  · split
    · exact h.after_byteTerm p q b
    · exact h.after_byteData hmax b

theorem after_outBytes (h : SameOutput s t) (bs : List Byte) : SameOutput (outBytes p bs s) (outBytes q bs t) := by
  induction bs generalizing s t with
  | nil => exact h
  | cons b bs ih => exact ih (h.after_outByte hopen hmax b)

theorem after_outEvent (h : SameOutput s t) (w : Word) : SameOutput (outEvent p w s) (outEvent q w t) := by
  unfold outEvent
  rw [h.outMode]
  split
  · exact h.after_queuePackets [channelPacket w]
  · exact h.after_outBytes hopen hmax (lanes w)

theorem after_outEvents (h : SameOutput s t) (ws : List Word) :
    SameOutput (outEvents p ws s) (outEvents q ws t) := by
  induction ws generalizing s t with
  | nil => exact h
  | cons w ws ih => exact ih (h.after_outEvent hopen hmax w)

theorem after_outBatch (h : SameOutput s t) (ws : List Word) : SameOutput (outBatch p ws s) (outBatch q ws t) :=
  (h.after_outEvents hopen hmax ws).after_writeQueue

end Parameters

end SameOutput

@[simp] theorem outBatch_outQ (p : Params) (ws : List Word) (s : State) : (outBatch p ws s).outQ = [] :=
  writeQueue_outQ _

/-- After a batch nothing is queued, so all bytes produced have been offered. -/
theorem produced_outBatch (p : Params) (ws : List Word) (s : State) :
    produced (outBatch p ws s) = offered (outBatch p ws s).trace := by
  simp [produced, packetBytes]

/-- Settles O27: under both groupings the batch produces the same bytes, and its end leaves none of them queued. -/
theorem writeGroupingsOfferTheSameBytes : Obligations.WriteGroupingsOfferTheSameBytes := by
  intro p q ws s hopen hmax
  have h := (SameOutput.refl s).after_outBatch hopen hmax ws
  constructor
  · simpa only [produced_outBatch] using h.produced
  · simp only [State.outboundView, h.outMode, h.outBuf, outBatch_outQ]

end Sys2Proof.Machine

namespace Sys2Proof.Machine

/-! ## What an operation does to the packet queue and the effects

Every operation is a sequence of a few elementary moves, however it is steered. What each move keeps, every step
keeps. -/

/-- The elementary moves on the packet queue and the effects. -/
inductive Move : State → State → Prop
  /-- Neither the queue nor the effects are touched. -/
  | quiet {s t : State} (hq : t.outQ = s.outQ) (ht : t.trace = s.trace) : Move s t
  /-- Packets with a CIN of 0x00 to 0x0F are queued (R74, R115). -/
  | queue {s : State} (ps : List Packet) (h : ∀ pkt ∈ ps, pkt.p0.toNat ≤ 15) : Move s (queuePackets ps s)
  /-- WriteQueue (R116). -/
  | write {s : State} : Move s (writeQueue s)
  /-- EmitHost (R156). -/
  | emit {s : State} (w : Word) : Move s (emitHost w s)
  /-- The queue of the run before is dropped (R241). -/
  | restart {s : State} : Move s (restart s)

/-- Any number of moves one after another. -/
abbrev Moves : State → State → Prop :=
  Relation.ReflTransGen Move

theorem Moves.quiet {s t u : State} (h : Moves s t) (hq : u.outQ = t.outQ) (ht : u.trace = t.trace) : Moves s u :=
  h.tail (.quiet hq ht)

theorem Moves.queue {s t : State} (h : Moves s t) (ps : List Packet) (hps : ∀ pkt ∈ ps, pkt.p0.toNat ≤ 15) :
    Moves s (queuePackets ps t) :=
  h.tail (.queue ps hps)

theorem Moves.write {s t : State} (h : Moves s t) : Moves s (writeQueue t) :=
  h.tail .write

theorem Moves.emit {s t : State} (h : Moves s t) (w : Word) : Moves s (emitHost w t) :=
  h.tail (.emit w)

/-! ### The packets that are queued (R74) -/

theorem channelCin_le (e0 : Byte) : (channelCin e0).toNat ≤ 15 := by
  have hlt := (e0 &&& 0xF0).isLt
  simp only [channelCin, BitVec.toNat_ushiftRight, Nat.shiftRight_eq_div_pow]
  omega

theorem terminalPackets_cin_le {buf : List Byte} : ∀ pkt ∈ terminalPackets buf, pkt.p0.toNat ≤ 15 := by
  intro pkt h
  obtain ⟨g, -, rfl⟩ := List.mem_map.mp h
  have hmin : min 3 (buf.length - 3 * g) ≤ 3 := min_le_left ..
  simp only [terminalPacket]
  split
  · decide
  · simp only [BitVec.toNat_add, BitVec.toNat_ofNat, BitVec.ofNat_eq_ofNat]
    omega

theorem forcedPackets_cin_le {p : Params} {n : Nat} {buf : List Byte} :
    ∀ pkt ∈ forcedPackets p n buf, pkt.p0.toNat ≤ 15 := by
  intro pkt h
  obtain ⟨g, -, rfl⟩ := List.mem_map.mp h
  exact (by decide : (0x04 : Byte).toNat ≤ 15)

/-! ### The moves of each operation -/

section Operations

variable {p : Params} {s₀ s : State}

theorem Moves.endFlush (h : Moves s₀ s) : Moves s₀ (endFlush p s) := by
  cases hp : p.writeGrouping with
  | perBatch => simpa [hp] using h
  | perFlush => simpa [hp] using h.write

theorem Moves.flushForced (h : Moves s₀ s) : Moves s₀ (flushForced p s) := by
  obtain ⟨-, e⟩ | ⟨-, e⟩ := flushForced_spec p s <;> rw [e]
  · exact h
  · refine Moves.endFlush ?_
    exact (h.queue _ forcedPackets_cin_le).quiet rfl rfl

theorem Moves.flushTerminal (h : Moves s₀ s) : Moves s₀ (flushTerminal p s) := by
  obtain ⟨-, e⟩ | ⟨-, e⟩ := flushTerminal_spec p s <;> rw [e]
  · exact h
  · refine Moves.endFlush ?_
    exact (h.queue _ terminalPackets_cin_le).quiet rfl rfl

theorem Moves.byteData (h : Moves s₀ s) (b : Byte) : Moves s₀ (byteData p b s) := by
  unfold Machine.byteData
  split
  · exact (h.quiet (u := appendOut b s) rfl rfl).flushForced
  · exact h.quiet rfl rfl

theorem Moves.byteOpen (h : Moves s₀ s) : Moves s₀ (byteOpen p s) := by
  obtain ⟨-, e⟩ | ⟨-, e⟩ := byteOpen_spec p s <;> rw [e]
  · exact (h.quiet (u := openOutMode s) rfl rfl).byteData opener
  · exact h.quiet rfl rfl

theorem Moves.byteTerm (h : Moves s₀ s) (b : Byte) : Moves s₀ (byteTerm p b s) :=
  (h.quiet (u := appendOut b s) rfl rfl).flushTerminal.quiet rfl rfl

theorem Moves.outByte (h : Moves s₀ s) (b : Byte) : Moves s₀ (outByte p b s) := by
  obtain ⟨-, -, e⟩ | ⟨-, -, e⟩ | ⟨-, -, e⟩ | ⟨-, -, e⟩ := outByte_spec p b s <;> rw [e]
  · exact h.byteOpen
  · exact h
  · exact h.byteTerm b
  · exact h.byteData b

theorem Moves.outBytes (h : Moves s₀ s) (bs : List Byte) : Moves s₀ (outBytes p bs s) := by
  induction bs generalizing s with
  | nil => exact h
  | cons b bs ih => exact ih (h.outByte b)

theorem Moves.outChannel (h : Moves s₀ s) (w : Word) : Moves s₀ (outChannel w s) :=
  h.queue [channelPacket w] (by simpa [channelPacket] using channelCin_le (lane w 0))

theorem Moves.outEvents (h : Moves s₀ s) (ws : List Word) : Moves s₀ (outEvents p ws s) := by
  induction ws generalizing s with
  | nil => exact h
  | cons w ws ih =>
    refine ih ?_
    obtain ⟨-, -, e⟩ | ⟨-, e⟩ := outEvent_spec p w s <;> rw [e]
    · exact h.outChannel w
    · exact h.outBytes (lanes w)

theorem Moves.inFlush (h : Moves s₀ s) : Moves s₀ (inFlush s) := by
  obtain ⟨-, e⟩ | ⟨-, e⟩ := inFlush_spec s <;> rw [e]
  · exact h
  · exact (h.emit (groupWord s.inBuf)).quiet rfl rfl

theorem Moves.inAppendCheck (h : Moves s₀ s) (b : Byte) : Moves s₀ (inAppendCheck b s) := by
  unfold Machine.inAppendCheck
  split
  · exact (h.quiet (u := inAppend b s) rfl rfl).inFlush
  · exact h.quiet rfl rfl

theorem Moves.inSysexCont (h : Moves s₀ s) (b1 b2 b3 : Byte) : Moves s₀ (inSysexCont b1 b2 b3 s) :=
  (((h.inAppendCheck b1).inAppendCheck b2).inAppendCheck b3).quiet rfl rfl

theorem Moves.inSysexEnd (h : Moves s₀ s) (b1 b2 b3 : Byte) : Moves s₀ (inSysexEnd b1 b2 b3 s) :=
  (((h.inAppendCheck b1).inAppendCheck b2).quiet (u := inAppend b3 _) rfl rfl).inFlush.quiet rfl rfl

theorem Moves.inPackets (h : Moves s₀ s) (ps : List Packet) : Moves s₀ (inPackets ps s) := by
  induction ps generalizing s with
  | nil => exact h
  | cons pkt ps ih =>
    refine ih ?_
    obtain ⟨-, e⟩ | ⟨-, e⟩ | ⟨-, e⟩ := inPacket_spec pkt s <;> rw [e]
    · exact h.inSysexCont ..
    · exact h.inSysexEnd ..
    · exact h.emit _

end Operations

section Exec

variable {i : Instr} {s t : State}

theorem exec_half_moves (hi : isOutbound i.op = true ∨ isInbound i.op = true) (h : exec i s = .next t) :
    Moves s t := by
  have h₀ : Moves s s := .refl
  cases i with
  | inSysexCont b1 b2 b3 => cases h; exact h₀.inSysexCont b1 b2 b3
  | inSysexEnd1 b1 b2 b3 | inSysexEnd2 b1 b2 b3 | inSysexEnd3 b1 b2 b3 => cases h; exact h₀.inSysexEnd b1 b2 b3
  | inEvent cb b1 b2 b3 => cases h; exact h₀.emit _
  | outSysexWord w => cases h; exact h₀.outBytes (lanes w)
  | outChannel w => cases h; exact h₀.outChannel w
  | byteOpen => cases h; exact h₀.byteOpen
  | byteSkip b => cases h; exact h₀
  | byteData b => cases h; exact h₀.byteData b
  | byteTerm b => cases h; exact h₀.byteTerm b
  | batchEnd => cases h; exact h₀.write
  | chunk r =>
    obtain ⟨ps, rfl⟩ := chunk_next h
    exact h₀.inPackets ps
  | flushForced => cases h; exact h₀.flushForced
  | flushTerminal => cases h; exact h₀.flushTerminal
  | inFlush => cases h; exact h₀.inFlush
  | outBatch ws => cases h; exact (h₀.outEvents ws).write
  | iterate | shutdown | reset => simp [Instr.op, isOutbound, isInbound] at hi

theorem exec_moves (h : exec i s = .next t) : Moves s t := by
  obtain hi | ⟨ws, r, u, -, -, -, hbatch, hread⟩ | ⟨ws, r, -, -, -, rfl⟩ | ⟨-, rfl⟩ | ⟨-, rfl⟩ :=
    exec_next_cases h
  · exact exec_half_moves hi h
  · exact (exec_half_moves (.inl rfl) hbatch).trans (exec_half_moves (.inr rfl) hread)
  · exact .single (.quiet rfl rfl)
  · exact .single (.quiet rfl rfl)
  · exact .single .restart

theorem step_moves (h : step s = .next t) : Moves s t := by
  obtain ⟨-, -, hx⟩ | ⟨tok, rest, -, -, hx⟩ := step_next_cases h
  · exact exec_moves hx
  · have htake : Move s { s with input := rest } := .quiet rfl rfl
    exact .head htake (exec_moves hx)

end Exec

/-! ### What the moves keep -/

theorem Move.trace_grows {s t : State} (h : Move s t) : ∃ es, t.trace = s.trace ++ es := by
  cases h with
  | quiet hq ht => exact ⟨[], by simp [ht]⟩
  | queue ps hps => exact ⟨[], by simp⟩
  | write =>
    obtain ⟨-, e⟩ | ⟨-, e⟩ := writeQueue_spec s <;> rw [e]
    · exact ⟨[], by simp⟩
    · exact ⟨_, rfl⟩
  | emit w => exact ⟨_, rfl⟩
  | restart => exact ⟨[], by simp⟩

theorem Moves.trace_grows {s t : State} (h : Moves s t) : ∃ es, t.trace = s.trace ++ es := by
  induction h with
  | refl => exact ⟨[], by simp⟩
  | tail _ hmove ih =>
    obtain ⟨es, he⟩ := ih
    obtain ⟨fs, hf⟩ := hmove.trace_grows
    exact ⟨es ++ fs, by simp [hf, he]⟩

/-- Settles O56: a step is some moves, and every move leaves the effects so far in front. -/
theorem stepOnlyAddsEffects : Obligations.StepOnlyAddsEffects :=
  fun _ _ h => (step_moves h).trace_grows

/-- A queue that is not empty, its CINs in range, is well framed as one call (R54, R74, R193). -/
theorem writeWellFramed_packetBytes {ps : List Packet} (hne : ps ≠ []) (hcin : ∀ pkt ∈ ps, pkt.p0.toNat ≤ 15) :
    writeWellFramed (packetBytes ps) = true := by
  have hpos := List.length_pos_iff.mpr hne
  simpa [writeWellFramed, hpos] using hcin

theorem Move.keeps_framed {s t : State} (h : Move s t) (hs : s.Framed) : t.Framed := by
  obtain ⟨hcalls, hcin⟩ := hs
  cases h with
  | quiet hq ht => exact ⟨by rwa [ht], by rwa [hq]⟩
  | queue ps hps => exact ⟨hcalls, fun pkt hmem => (List.mem_append.mp hmem).elim (hcin pkt) (hps pkt)⟩
  | write =>
    obtain ⟨-, e⟩ | ⟨hne, e⟩ := writeQueue_spec s <;> rw [e]
    · exact ⟨hcalls, hcin⟩
    · refine ⟨fun bs hmem => ?_, nofun⟩
      simp only [writeCalls_append, writeCalls, List.mem_append, List.mem_singleton] at hmem
      obtain hmem | rfl := hmem
      · exact hcalls bs hmem
      · exact writeWellFramed_packetBytes hne hcin
  | emit w => exact ⟨by simpa [writeCalls] using hcalls, hcin⟩
  | restart => exact ⟨hcalls, nofun⟩

theorem Moves.keeps_framed {s t : State} (h : Moves s t) (hs : s.Framed) : t.Framed := by
  induction h with
  | refl => exact hs
  | tail _ hmove ih => exact hmove.keeps_framed ih

/-- Settles O54: a step is some moves, and every move keeps the calls and the queue framed. -/
theorem stepKeepsWritesFramed : Obligations.StepKeepsWritesFramed :=
  fun _ _ hs h => (step_moves h).keeps_framed hs

end Sys2Proof.Machine

namespace Sys2Proof.Machine

/-! ## The inputs to come and the shutdown flag are outside both halves (R35, R36)

`s.mapLoop f g` is `s` with its flag and its inputs changed. Every operation of a half commutes with such a change:
this is why taking its token first or later, or raising the flag first or later, makes no difference. -/

/-- `s` with its shutdown flag changed by `f` and its inputs to come by `g`. -/
def State.mapLoop (f : Bool → Bool) (g : List Token → List Token) (s : State) : State :=
  { s with shutdownReq := f s.shutdownReq, input := g s.input }

section MapLoop

variable (f : Bool → Bool) (g : List Token → List Token) (p : Params) (s : State)

@[simp] theorem mapLoop_outMode : (s.mapLoop f g).outMode = s.outMode := rfl
@[simp] theorem mapLoop_outBuf : (s.mapLoop f g).outBuf = s.outBuf := rfl
@[simp] theorem mapLoop_outQ : (s.mapLoop f g).outQ = s.outQ := rfl
@[simp] theorem mapLoop_inBuf : (s.mapLoop f g).inBuf = s.inBuf := rfl
@[simp] theorem mapLoop_runState : (s.mapLoop f g).runState = s.runState := rfl
@[simp] theorem mapLoop_shutdownReq : (s.mapLoop f g).shutdownReq = f s.shutdownReq := rfl
@[simp] theorem mapLoop_cellDraws : (s.mapLoop f g).cellDraws = s.cellDraws := rfl

/-! ### The updates -/

@[simp] theorem openOutMode_mapLoop : openOutMode (s.mapLoop f g) = (openOutMode s).mapLoop f g := rfl
@[simp] theorem closeOutMode_mapLoop : closeOutMode (s.mapLoop f g) = (closeOutMode s).mapLoop f g := rfl
@[simp] theorem writeInMode_mapLoop (m : Mode) :
    writeInMode m (s.mapLoop f g) = (writeInMode m s).mapLoop f g := rfl
@[simp] theorem queuePackets_mapLoop (ps : List Packet) :
    queuePackets ps (s.mapLoop f g) = (queuePackets ps s).mapLoop f g := rfl
@[simp] theorem appendOut_mapLoop (b : Byte) : appendOut b (s.mapLoop f g) = (appendOut b s).mapLoop f g := rfl
@[simp] theorem clearOut_mapLoop : clearOut (s.mapLoop f g) = (clearOut s).mapLoop f g := rfl
@[simp] theorem emitHost_mapLoop (w : Word) : emitHost w (s.mapLoop f g) = (emitHost w s).mapLoop f g := rfl
@[simp] theorem inAppend_mapLoop (b : Byte) : inAppend b (s.mapLoop f g) = (inAppend b s).mapLoop f g := rfl
@[simp] theorem clearIn_mapLoop : clearIn (s.mapLoop f g) = (clearIn s).mapLoop f g := rfl

/-! ### Outbound -/

@[simp] theorem writeQueue_mapLoop : writeQueue (s.mapLoop f g) = (writeQueue s).mapLoop f g := by
  by_cases h : s.outQ = [] <;> simp [writeQueue, h, State.mapLoop]

@[simp] theorem endFlush_mapLoop : endFlush p (s.mapLoop f g) = (endFlush p s).mapLoop f g := by
  cases hp : p.writeGrouping <;> simp [hp]

@[simp] theorem viewDeadCells_mapLoop : viewDeadCells p (s.mapLoop f g) = (viewDeadCells p s).mapLoop f g := by
  by_cases h : s.outBuf.length < p.outSysexMax <;> simp [viewDeadCells, h, State.mapLoop]

@[simp] theorem flushForced_mapLoop : flushForced p (s.mapLoop f g) = (flushForced p s).mapLoop f g := by
  by_cases h : s.outBuf = [] <;> simp [flushForced, h]

@[simp] theorem flushTerminal_mapLoop : flushTerminal p (s.mapLoop f g) = (flushTerminal p s).mapLoop f g := by
  by_cases h : s.outBuf = [] <;> simp [flushTerminal, h]

@[simp] theorem byteData_mapLoop (b : Byte) : byteData p b (s.mapLoop f g) = (byteData p b s).mapLoop f g := by
  by_cases h : s.outBuf.length + 1 = p.outSysexMax <;> simp [byteData, h]

@[simp] theorem byteOpen_mapLoop : byteOpen p (s.mapLoop f g) = (byteOpen p s).mapLoop f g := by
  cases h : p.openerInBuffer <;> simp [byteOpen, h]

@[simp] theorem byteTerm_mapLoop (b : Byte) : byteTerm p b (s.mapLoop f g) = (byteTerm p b s).mapLoop f g := by
  simp [byteTerm]

@[simp] theorem outByte_mapLoop (b : Byte) : outByte p b (s.mapLoop f g) = (outByte p b s).mapLoop f g := by
  simp only [outByte, mapLoop_outMode]
  cases s.outMode
  · by_cases h : b = opener <;> simp [h, byteSkip]
  · cases h : isTerminator b <;> simp

@[simp] theorem outBytes_mapLoop (bs : List Byte) :
    outBytes p bs (s.mapLoop f g) = (outBytes p bs s).mapLoop f g := by
  induction bs generalizing s with
  | nil => rfl
  | cons b bs ih => simp [outBytes, ih]

@[simp] theorem outEvent_mapLoop (w : Word) : outEvent p w (s.mapLoop f g) = (outEvent p w s).mapLoop f g := by
  by_cases h : s.outMode = .idle ∧ lane w 0 ≠ opener <;>
    simp [outEvent, h, outChannel, queuePacket, outSysexWord]

@[simp] theorem outEvents_mapLoop (ws : List Word) :
    outEvents p ws (s.mapLoop f g) = (outEvents p ws s).mapLoop f g := by
  induction ws generalizing s with
  | nil => rfl
  | cons w ws ih => simp [outEvents, ih]

@[simp] theorem outBatch_mapLoop (ws : List Word) :
    outBatch p ws (s.mapLoop f g) = (outBatch p ws s).mapLoop f g := by
  simp [outBatch, batchEnd]

/-! ### Inbound -/

@[simp] theorem inFlush_mapLoop : inFlush (s.mapLoop f g) = (inFlush s).mapLoop f g := by
  by_cases h : s.inBuf = [] <;> simp [inFlush, h]

@[simp] theorem inAppendCheck_mapLoop (b : Byte) :
    inAppendCheck b (s.mapLoop f g) = (inAppendCheck b s).mapLoop f g := by
  by_cases h : s.inBuf.length + 1 = Config.inGroup <;> simp [inAppendCheck, h]

@[simp] theorem inSysexCont_mapLoop (b1 b2 b3 : Byte) :
    inSysexCont b1 b2 b3 (s.mapLoop f g) = (inSysexCont b1 b2 b3 s).mapLoop f g := by
  simp [inSysexCont]

@[simp] theorem inSysexEnd_mapLoop (b1 b2 b3 : Byte) :
    inSysexEnd b1 b2 b3 (s.mapLoop f g) = (inSysexEnd b1 b2 b3 s).mapLoop f g := by
  simp [inSysexEnd]

@[simp] theorem inPacket_mapLoop (pkt : Packet) :
    inPacket pkt (s.mapLoop f g) = (inPacket pkt s).mapLoop f g := by
  unfold inPacket
  split_ifs <;> simp [inEvent]

@[simp] theorem inPackets_mapLoop (ps : List Packet) :
    inPackets ps (s.mapLoop f g) = (inPackets ps s).mapLoop f g := by
  induction ps generalizing s with
  | nil => rfl
  | cons pkt ps ih => simp [inPackets, ih]

/-- CHUNK's tests read the transport's result only (R151 to R153). -/
theorem chunk_mapLoop (r : ReadResult) :
    chunk p r (s.mapLoop f g) = followedBy (chunk p r s) fun t => .next (t.mapLoop f g) := by
  unfold chunk
  split_ifs <;> simp

/-- An operation of a half commutes with every change of the flag and of the inputs to come. -/
theorem exec_half_mapLoop {i : Instr} (hi : isOutbound i.op = true ∨ isInbound i.op = true) :
    exec i (s.mapLoop f g) = followedBy (exec i s) fun t => .next (t.mapLoop f g) := by
  cases i with
  | inSysexCont b1 b2 b3 => exact congrArg _ (inSysexCont_mapLoop f g s b1 b2 b3)
  | inSysexEnd1 b1 b2 b3 | inSysexEnd2 b1 b2 b3 | inSysexEnd3 b1 b2 b3 =>
    exact congrArg _ (inSysexEnd_mapLoop f g s b1 b2 b3)
  | inEvent cb b1 b2 b3 => rfl
  | outSysexWord w => exact congrArg _ (outBytes_mapLoop f g hardware s (lanes w))
  | outChannel w => rfl
  | byteOpen => exact congrArg _ (byteOpen_mapLoop f g hardware s)
  | byteSkip b => rfl
  | byteData b => exact congrArg _ (byteData_mapLoop f g hardware s b)
  | byteTerm b => exact congrArg _ (byteTerm_mapLoop f g hardware s b)
  | batchEnd => exact congrArg _ (writeQueue_mapLoop f g s)
  | chunk r => exact chunk_mapLoop f g hardware s r
  | flushForced => exact congrArg _ (flushForced_mapLoop f g hardware s)
  | flushTerminal => exact congrArg _ (flushTerminal_mapLoop f g hardware s)
  | inFlush => exact congrArg _ (inFlush_mapLoop f g s)
  | outBatch ws => exact congrArg _ (outBatch_mapLoop f g hardware s ws)
  | iterate | shutdown | reset => simp [Instr.op, isOutbound, isInbound] at hi

/-- ITERATE reads the flag, and commutes with every change of the inputs to come. -/
theorem iterate_mapLoop_id (ws : List Word) (r : ReadResult) :
    iterate p ws r (s.mapLoop id g) = followedBy (iterate p ws r s) fun t => .next (t.mapLoop id g) := by
  simp only [iterate, mapLoop_runState, mapLoop_shutdownReq, id_eq, outBatch_mapLoop]
  cases s.runState with
  | stopped => rfl
  | running =>
    cases s.shutdownReq with
    | true => rfl
    | false => exact chunk_mapLoop id g p (outBatch p ws s) r

end MapLoop

/-- No operation reads the inputs to come, and each carries them through. -/
theorem exec_withInput (i : Instr) (inp : List Token) (s : State) :
    exec i { s with input := inp } = followedBy (exec i s) fun t => .next { t with input := inp } := by
  by_cases hi : isOutbound i.op = true ∨ isInbound i.op = true
  · exact exec_half_mapLoop id (fun _ => inp) s hi
  cases i with
  | iterate ws r => exact iterate_mapLoop_id (fun _ => inp) hardware s ws r
  | shutdown => rfl
  | reset => rfl
  | _ => simp [Instr.op, isOutbound, isInbound] at hi

/-! ## Running several tokens -/

section Runs

theorem followedBy_assoc (r : Result) (f g : State → Result) :
    followedBy (followedBy r f) g = followedBy r fun t => followedBy (f t) g := by
  cases r <;> rfl

theorem followedBy_congr {r : Result} {f g : State → Result} (h : ∀ t, r = .next t → f t = g t) :
    followedBy r f = followedBy r g := by
  cases r with
  | next t => exact h t rfl
  | fault e => rfl
  | refused e => rfl

/-- Other inputs may be put in before an operation or after it. -/
theorem followedBy_exec_withInput (i : Instr) (inp : List Token) (s : State) (k : State → Result) :
    followedBy (exec i { s with input := inp }) k = followedBy (exec i s) fun t => k { t with input := inp } :=
  (congrArg (followedBy · k) (exec_withInput i inp s)).trans (followedBy_assoc ..)

/-- A token of a half decodes to an operation of that half. -/
theorem decode_half {tok : Token} (h : Token.isHalf tok = true) (m : Mode) :
    isOutbound (decode m tok).op = true ∨ isInbound (decode m tok).op = true := by
  cases tok with
  | packet p => simp only [decode, decodePacket]; split_ifs <;> exact .inr rfl
  | word w => simp only [decode, decodeWord]; split_ifs <;> exact .inl rfl
  | byte b => cases m <;> simp only [decode, decodeByte] <;> split_ifs <;> exact .inl rfl
  | event e =>
    cases e with
    | batch | batchEnd => exact .inl rfl
    | chunk => exact .inr rfl
    | iter | shutdown | reset => cases h

/-- One step of a run: the token's operation, and then the steps over the inputs after it. -/
theorem runSteps_succ {s : State} {tok : Token} (h : s.runState = .running ∨ takenAlways tok = true) (n : Nat)
    (inp : List Token) :
    runSteps (n + 1) { s with input := tok :: inp } =
      followedBy (exec (decode s.outMode tok) s) fun t => runSteps n { t with input := inp } := by
  have hstep : step { s with input := tok :: inp } = exec (decode s.outMode tok) { s with input := inp } :=
    step_of_input_cons rfl h
  exact (congrArg (followedBy · (runSteps n)) hstep).trans (followedBy_exec_withInput ..)

/-- Tokens that leave a running loop running, whatever the flag: those of a half, and the signal. -/
def StaysRunning (tok : Token) : Prop :=
  Token.isHalf tok = true ∨ tok = .event .shutdown

theorem exec_keeps_running {tok : Token} {s t : State} (htok : StaysRunning tok) (hrun : s.runState = .running)
    (h : exec (decode s.outMode tok) s = .next t) : t.runState = .running := by
  obtain hhalf | rfl := htok
  · exact (congrArg Prod.fst (exec_half_frame (decode_half hhalf _) h).1).trans hrun
  · cases h
    exact hrun

/-- Steps over such tokens run their operations in order, and leave the inputs after them. -/
theorem runSteps_eq_runTokens {ts : List Token} (rest : List Token) {s : State} (hrun : s.runState = .running)
    (hts : ∀ tok ∈ ts, StaysRunning tok) :
    runSteps ts.length { s with input := ts ++ rest } = runTokens ts { s with input := rest } := by
  induction ts generalizing s with
  | nil => rfl
  | cons tok ts ih =>
    obtain ⟨htok, hts⟩ := List.forall_mem_cons.mp hts
    calc runSteps (ts.length + 1) { s with input := tok :: (ts ++ rest) }
      _ = followedBy (exec (decode s.outMode tok) s) fun t => runSteps ts.length { t with input := ts ++ rest } :=
        runSteps_succ (.inl hrun) _ _
      _ = followedBy (exec (decode s.outMode tok) s) fun t => runTokens ts { t with input := rest } :=
        followedBy_congr fun t ht => ih (exec_keeps_running htok hrun ht) hts
      _ = runTokens (tok :: ts) { s with input := rest } := (followedBy_exec_withInput ..).symm

/-- Settles O44: the tokens of a half are among those that leave the loop running. -/
theorem stepsRunTheTokensInOrder : Obligations.StepsRunTheTokensInOrder := by
  intro ts rest s hrun hts
  exact runSteps_eq_runTokens rest hrun fun tok hmem => .inl (List.all_eq_true.mp hts tok hmem)

end Runs

/-! ## A signal inside an iteration (R66) -/

section Signal

variable {s : State}

/-- The signal may be moved behind any tokens of the halves. -/
theorem runTokens_raiseShutdown {ts : List Token} (h : ∀ tok ∈ ts, Token.isHalf tok = true) :
    runTokens ts (raiseShutdown s) = followedBy (runTokens ts s) execShutdown := by
  induction ts generalizing s with
  | nil => rfl
  | cons tok ts ih =>
    obtain ⟨htok, hts⟩ := List.forall_mem_cons.mp h
    calc runTokens (tok :: ts) (raiseShutdown s)
      _ = followedBy (exec (decode s.outMode tok) s) fun t => runTokens ts (raiseShutdown t) := by
        have hcomm : exec (decode s.outMode tok) (raiseShutdown s) =
            followedBy (exec (decode s.outMode tok) s) execShutdown :=
          exec_half_mapLoop (fun _ => true) id s (decode_half htok _)
        rw [runTokens, raiseShutdown_outMode, hcomm, followedBy_assoc]
        rfl
      _ = followedBy (exec (decode s.outMode tok) s) fun t => followedBy (runTokens ts t) execShutdown :=
        followedBy_congr fun t _ => ih hts
      _ = followedBy (runTokens (tok :: ts) s) execShutdown := (followedBy_assoc ..).symm

/-- Wherever the signal stands among tokens of the halves, it acts as if it came last. -/
theorem runTokens_shutdown_between {pre post : List Token} (h : ∀ tok ∈ post, Token.isHalf tok = true) :
    runTokens (pre ++ [.event .shutdown] ++ post) s = followedBy (runTokens (pre ++ post) s) execShutdown := by
  rw [List.append_assoc, runTokens_append, runTokens_append, followedBy_assoc]
  exact followedBy_congr fun t _ => runTokens_raiseShutdown h

/-! ### The parts of an iteration -/

theorem exec_decodeWord (w : Word) (s : State) :
    exec (decode s.outMode (.word w)) s = .next (outEvent hardware w s) := by
  simp only [decode, decodeWord, outEvent]
  split_ifs <;> rfl

theorem exec_decodePacket (m : Mode) (pkt : Packet) (s : State) :
    exec (decode m (.packet pkt)) s = .next (inPacket pkt s) := by
  simp only [decode, decodePacket, inPacket]
  split_ifs <;> rfl

theorem runTokens_words (ws : List Word) (s : State) :
    runTokens (ws.map Token.word) s = .next (outEvents hardware ws s) := by
  induction ws generalizing s with
  | nil => rfl
  | cons w ws ih => simp [runTokens, exec_decodeWord, ih, outEvents]

theorem runTokens_packets (ps : List Packet) (s : State) :
    runTokens (ps.map Token.packet) s = .next (inPackets ps s) := by
  induction ps generalizing s with
  | nil => rfl
  | cons pkt ps ih => simp [runTokens, exec_decodePacket, ih, inPackets]

theorem runTokens_single (tok : Token) (s : State) : runTokens [tok] s = exec (decode s.outMode tok) s := by
  rw [runTokens]
  cases exec (decode s.outMode tok) s <;> rfl

/-- However a batch is given, whole or in words, it runs as OUT_BATCH. -/
theorem runTokens_batchParts {ws : List Word} {out : List Token} (h : out ∈ batchParts ws) (s : State) :
    runTokens out s = .next (outBatch hardware ws s) := by
  obtain rfl | rfl := mem_batchParts.mp h
  · exact runTokens_single ..
  · rw [runTokens_append, runTokens_words, followedBy_next]
    exact runTokens_single ..

/-- However a read is given, whole or in packets, it runs as CHUNK. -/
theorem runTokens_readParts {r : ReadResult} {inn : List Token} (h : inn ∈ readParts r) (s : State) :
    runTokens inn s = chunk hardware r s := by
  obtain rfl | ⟨hfail, rfl⟩ | ⟨hok, hlen, halign, rfl⟩ := mem_readParts.mp h
  · exact runTokens_single ..
  · simp [runTokens, chunk, hfail]
  · rw [runTokens_packets]
    simp [chunk, hok, Nat.not_lt.mpr hlen, Config.pktBytes, halign]

theorem isHalf_of_mem_batchParts {ws : List Word} {out : List Token} (h : out ∈ batchParts ws) :
    ∀ tok ∈ out, Token.isHalf tok = true := by
  obtain rfl | rfl := mem_batchParts.mp h
  · simp [Token.isHalf]
  · intro tok hmem
    obtain hmem | hmem := List.mem_append.mp hmem
    · obtain ⟨w, -, rfl⟩ := List.mem_map.mp hmem
      rfl
    · cases List.mem_singleton.mp hmem
      rfl

theorem isHalf_of_mem_readParts {r : ReadResult} {inn : List Token} (h : inn ∈ readParts r) :
    ∀ tok ∈ inn, Token.isHalf tok = true := by
  obtain rfl | ⟨-, rfl⟩ | ⟨-, -, -, rfl⟩ := mem_readParts.mp h
  · simp [Token.isHalf]
  · nofun
  · intro tok hmem
    obtain ⟨pkt, -, rfl⟩ := List.mem_map.mp hmem
    rfl

/-- With no request, an iteration of a running loop is its parts one after another (R191). -/
theorem exec_iterate_eq_runTokens {ws : List Word} {r : ReadResult} {out inn : List Token}
    (hout : out ∈ batchParts ws) (hinn : inn ∈ readParts r) (hrun : s.runState = .running)
    (hreq : s.shutdownReq = false) : exec (.iterate ws r) s = runTokens (out ++ inn) s := by
  rw [runTokens_append, runTokens_batchParts hout, followedBy_next, runTokens_readParts hinn]
  simp [exec, execIterate, iterate, hrun, hreq]

/-- The steps of an iteration with the signal after it. -/
theorem runSteps_iterate_shutdown (hrun : s.runState = .running) (ws : List Word) (r : ReadResult)
    (rest : List Token) :
    runSteps 2 { s with input := [.event (.iter ws r), .event .shutdown] ++ rest } =
      followedBy (exec (.iterate ws r) { s with input := rest }) execShutdown := by
  calc runSteps 2 { s with input := .event (.iter ws r) :: .event .shutdown :: rest }
    _ = followedBy (exec (.iterate ws r) s) fun t => runSteps 1 { t with input := .event .shutdown :: rest } :=
      runSteps_succ (.inl hrun) ..
    _ = followedBy (exec (.iterate ws r) s) fun t => execShutdown { t with input := rest } :=
      followedBy_congr fun t _ => runSteps_succ (.inr rfl) ..
    _ = followedBy (exec (.iterate ws r) { s with input := rest }) execShutdown :=
      (followedBy_exec_withInput ..).symm

end Signal

/-- Settles O43: on both sides the parts run in order, and then the signal. -/
theorem shutdownInsideAnIterationIsSeenAfterIt : Obligations.ShutdownInsideAnIterationIsSeenAfterIt := by
  rintro ws r rest pre post s hrun hreq ⟨out, hout, inn, hinn, hparts⟩
  have hhalf : ∀ tok ∈ pre ++ post, Token.isHalf tok = true := by
    rw [hparts]
    exact fun tok hmem => (List.mem_append.mp hmem).elim
      (isHalf_of_mem_batchParts hout tok) (isHalf_of_mem_readParts hinn tok)
  obtain ⟨hpre, hpost⟩ := List.forall_mem_append.mp hhalf
  have hstays : ∀ tok ∈ pre ++ [.event .shutdown] ++ post, StaysRunning tok := by
    simp only [List.forall_mem_append, List.forall_mem_singleton]
    exact ⟨⟨fun tok hmem => .inl (hpre tok hmem), .inr rfl⟩, fun tok hmem => .inl (hpost tok hmem)⟩
  calc runSteps (pre.length + 1 + post.length) { s with input := pre ++ [.event .shutdown] ++ post ++ rest }
    _ = runTokens (pre ++ [.event .shutdown] ++ post) { s with input := rest } := by
      rw [← runSteps_eq_runTokens rest hrun hstays]
      simp only [List.length_append, List.length_singleton]
    _ = followedBy (runTokens (out ++ inn) { s with input := rest }) execShutdown := by
      rw [runTokens_shutdown_between hpost, hparts]
    _ = followedBy (exec (.iterate ws r) { s with input := rest }) execShutdown := by
      rw [exec_iterate_eq_runTokens (s := { s with input := rest }) hout hinn hrun hreq]
    _ = runSteps 2 { s with input := [.event (.iter ws r), .event .shutdown] ++ rest } :=
      (runSteps_iterate_shutdown hrun ws r rest).symm

/-! ## Completion -/

/-- Settles O40: of the operations, only the tests of CHUNK and of ITERATE can refuse. -/
theorem operationsComplete : Obligations.OperationsComplete := by
  intro i s hchunk hiterate
  cases i with
  | chunk => exact absurd rfl hchunk
  | iterate => exact absurd rfl hiterate
  | _ => exact ⟨_, rfl⟩

end Sys2Proof.Machine

namespace Sys2Proof.Machine

/-! ## The classification tables (R76 to R78, R83) -/

/-- Settles O4, by running the decoder. -/
theorem sampleTokensDecode : Obligations.SampleTokensDecode := by
  unfold Obligations.SampleTokensDecode
  decide

/-- Settles O6: the classification compares the whole control byte, and IN_EVENT is run on the payload alone. -/
theorem controlBytePicksTheOperation : Obligations.ControlBytePicksTheOperation := by
  refine ⟨fun m cb b1 b2 b3 => ?_, fun _ _ _ _ _ _ => rfl⟩
  simp [decode, decodePacket, BitVec.toNat_eq]

/-- Settles O9: such a control byte is none of the four SysEx values of R76. -/
theorem nonzeroCableNibbleIsAnEvent : Obligations.NonzeroCableNibbleIsAnEvent := by
  intro m cb b1 b2 b3 hcb
  rw [controlBytePicksTheOperation.1, if_neg, if_neg, if_neg, if_neg] <;> omega

theorem isTerminator_iff {b : Byte} : isTerminator b = true ↔ 0x80 ≤ b.toNat ∧ b.toNat ≠ 0xF0 := by
  have hbit : b.getLsbD 7 = decide (0x80 ≤ b.toNat) := BitVec.msb_eq_decide b
  simp only [isTerminator, hbit, Bool.and_eq_true, bne_iff_ne, ne_eq, decide_eq_true_eq, opener, BitVec.toNat_eq]
  exact and_comm

/-- Settles O7: 0xF0 opens while `Idle`, and the terminators are the bytes from 0x80 up but 0xF0. -/
theorem modeAndBytePickTheByteOperation : Obligations.ModeAndBytePickTheByteOperation := by
  refine fun b => ⟨by simp [decode, decodeByte, opener, BitVec.toNat_eq], ?_⟩
  by_cases h : b.toNat ≤ 0x7F ∨ b.toNat = 0xF0
  · rw [if_pos h, decode, decodeByte, if_neg (by rw [isTerminator_iff]; omega)]
  · rw [if_neg h, decode, decodeByte, if_pos (by rw [isTerminator_iff]; omega)]

theorem toNat_lane_zero (w : Word) : (lane w 0).toNat = w.toNat % 256 := by
  simp [lane]

/-- Settles O8: the status byte is the word modulo 256. -/
theorem modeAndStatusPickTheWordOperation : Obligations.ModeAndStatusPickTheWordOperation := by
  refine fun w => ⟨?_, rfl⟩
  simp [decode, decodeWord, opener, BitVec.toNat_eq, toNat_lane_zero]

/-! ## The decoder and the encoder undo each other (R70 to R79) -/

/-- The format an input token stands in (R70). -/
def inputFormat : Token → Format
  | .packet _ => .inPkt
  | .word _ => .hostWord
  | .byte _ => .outByte
  | .event _ => .ctrl

/-- The format of an operation is that of its input token. -/
theorem op_format_of_encode {i : Instr} {tok : Token} (h : encode i = some tok) : i.op.format = inputFormat tok := by
  cases i <;> cases h <;> rfl

/-- An operation without an input token is an internal procedure. -/
theorem op_format_of_encode_none {i : Instr} (h : encode i = none) : i.op.format = .internal := by
  cases i <;> cases h <;> rfl

/-- The token of an operation that fits the mode decodes to it in that mode. -/
theorem decode_encode {m : Mode} {i : Instr} {tok : Token} (hwf : i.wfIn m = true) (h : encode i = some tok) :
    decode m tok = i := by
  cases i with
  | inEvent cb b1 b2 b3 =>
    cases h
    simp_all [Instr.wfIn, isSysexControl, decode, decodePacket]
  | outSysexWord w =>
    cases h
    cases m <;> simp_all [Instr.wfIn, decode, decodeWord]
  | outChannel w =>
    cases h
    simp_all [Instr.wfIn, decode, decodeWord]
  | byteOpen =>
    cases h
    obtain rfl : m = .idle := by simpa [Instr.wfIn] using hwf
    rfl
  | byteSkip b | byteData b | byteTerm b =>
    cases h
    simp_all [Instr.wfIn, decode, decodeByte]
  | flushForced | flushTerminal | inFlush => cases h
  | _ =>
    cases h
    rfl

/-- A byte stream that starts with the bytes of a token decodes as the token does. -/
theorem decodeBytes_bytes (m : Mode) {tok : Token} (h : inputFormat tok ≠ .ctrl) (rest : List Byte) :
    decodeBytes (inputFormat tok) m (tok.bytes ++ rest) = .ok (decode m tok) rest := by
  cases tok with
  | packet p => rfl
  | word w => exact decodeBytes_word m w rest
  | byte b => rfl
  | event e => exact absurd rfl h

/-- The bytes of an operation that fits the mode and has bits decode to it, whatever bytes follow. -/
theorem decodeBytes_encodeBytes {m : Mode} {i : Instr} (hwf : i.wfIn m = true) (hctrl : i.op.format ≠ .ctrl)
    (hinternal : i.op.format ≠ .internal) (rest : List Byte) :
    decodeBytes i.op.format m (encodeBytes i ++ rest) = .ok i rest := by
  cases htok : encode i with
  | none => exact absurd (op_format_of_encode_none htok) hinternal
  | some tok =>
    rw [op_format_of_encode htok] at hctrl ⊢
    simp only [encodeBytes, htok, decodeBytes_bytes m hctrl rest, decode_encode hwf htok]

/-- Settles O11: the three parts are `decode_encode`, `decode_wfIn` with `encode_decode`, and
`decodeBytes_encodeBytes`. -/
theorem decodeInvertsEncode : Obligations.DecodeInvertsEncode := by
  refine ⟨fun m i tok => decode_encode, fun m tok => ⟨decode_wfIn m tok, encode_decode m tok⟩, ?_⟩
  intro m i rest hwf hf
  refine decodeBytes_encodeBytes hwf ?_ ?_ rest <;> rcases hf with hf | hf | hf <;> simp [hf]

/-! ## The rows of the opcode table (R72)

Every mask of the table fixes some of the high bits of the low byte, so a row stands for an interval of that byte. Rows
of one format and mode shut each other out, and their intervals cover the tables above. -/

/-- A mask with `k` low bits open keeps the multiple of `2 ^ k` below the low byte. -/
theorem and_highMask (n : Nat) {k : Nat} (hk : k ≤ 8) : n &&& (2 ^ 8 - 2 ^ k) = 2 ^ k * (n % 2 ^ 8 / 2 ^ k) := by
  have hmask : 2 ^ 8 - 2 ^ k = 2 ^ k * (2 ^ (8 - k) - 1) := by
    rw [Nat.mul_sub_one, ← pow_add, Nat.add_sub_cancel' hk]
  apply Nat.eq_of_testBit_eq
  intro i
  rw [hmask, Nat.testBit_and, Nat.testBit_two_pow_mul, Nat.testBit_two_pow_mul, Nat.testBit_two_pow_sub_one,
    Nat.testBit_div_two_pow, Nat.testBit_mod_two_pow]
  by_cases hki : k ≤ i
  · simp [hki, Bool.and_comm, show i - k < 8 - k ↔ i < 8 by omega]
  · simp [hki]

/-- Every mask of the table is of that kind, and the row's value is zero on the open bits. -/
theorem mask_highBits : ∀ r ∈ opcodeRows, ∃ k ≤ 8, r.mask.toNat = 2 ^ 8 - 2 ^ k ∧ 2 ^ k ∣ r.value.toNat := by
  decide

/-- A row stands for the low byte `n` in a mode: the row's mode admits it, and `n` is in the interval that starts at the
row's value and is as long as its mask leaves open. -/
def RowCovers (r : OpcodeRow) (m : Mode) (n : Nat) : Prop :=
  (r.mode = none ∨ r.mode = some m) ∧ r.value.toNat ≤ n ∧ n + r.mask.toNat < r.value.toNat + 256

theorem selects_iff_covers {r : OpcodeRow} (hr : r ∈ opcodeRows) (m : Mode) (v : Word) :
    r.selects m v = true ↔ RowCovers r m (v.toNat % 256) := by
  obtain ⟨k, hk, hmask, c, hvalue⟩ := mask_highBits r hr
  have hpos : 0 < 2 ^ k := Nat.two_pow_pos k
  have hle : 2 ^ k ≤ 2 ^ 8 := Nat.pow_le_pow_right (by omega) hk
  have hmatch : (v &&& r.mask) = r.value ↔ v.toNat % 2 ^ 8 / 2 ^ k = c := by
    rw [BitVec.toNat_eq, BitVec.toNat_and, hmask, hvalue, and_highMask _ hk, Nat.mul_right_inj hpos.ne']
  simp only [OpcodeRow.selects, RowCovers, Bool.and_eq_true, Bool.or_eq_true, beq_iff_eq, hmatch,
    Nat.div_eq_iff hpos, hmask, hvalue, mul_comm c]
  refine and_congr_right fun _ => ?_
  omega

/-- Two rows of one format that a mode admits both differ in a bit that both masks read. -/
theorem opcodeRows_disjoint : opcodeRows.Pairwise fun r r' => r.format = r'.format →
    (r.mode = none ∨ r'.mode = none ∨ r.mode = r'.mode) → r.value &&& r'.mask ≠ r'.value &&& r.mask := by
  decide

theorem not_selects_both {r r' : OpcodeRow} {m : Mode} {v : Word}
    (h : (r.mode = none ∨ r'.mode = none ∨ r.mode = r'.mode) → r.value &&& r'.mask ≠ r'.value &&& r.mask)
    (hr : r.selects m v = true) : r'.selects m v = false := by
  by_contra hr'
  simp only [OpcodeRow.selects, Bool.and_eq_true, Bool.or_eq_true, beq_iff_eq, Bool.not_eq_false] at hr hr'
  obtain ⟨hmode, hv⟩ := hr
  obtain ⟨hmode', hv'⟩ := hr'
  refine h ?_ ?_
  · obtain hm | hm := hmode <;> obtain hm' | hm' := hmode' <;> simp [hm, hm']
  · rw [← hv, ← hv', BitVec.and_assoc, BitVec.and_assoc, BitVec.and_comm r.mask]

/-- When an element that passes shuts out every later one, the filter keeps one element. -/
theorem filter_eq_singleton {α : Type} {p : α → Bool} {a : α} {l : List α}
    (hl : l.Pairwise fun x y => p x = true → p y = false) (ha : a ∈ l) (hp : p a = true) : l.filter p = [a] := by
  induction l with
  | nil => cases ha
  | cons x l ih =>
    obtain ⟨hx, hl⟩ := List.pairwise_cons.mp hl
    obtain rfl | ha := List.mem_cons.mp ha
    · rw [List.filter_cons_of_pos hp, List.filter_eq_nil_iff.mpr fun y hy => by simp [hx y hy hp]]
    · have hpx : ¬ p x = true := fun h => by simp [hx a ha h] at hp
      rw [List.filter_cons_of_neg hpx, ih hl ha]

/-- A row that covers the low byte is the only row of its format that matches. -/
theorem rowsFor_of_covers {rows : List OpcodeRow} (hrows : rows ⊆ opcodeRows) {f : Format} {m : Mode} {v : Word}
    {op : Op} (h : ∃ r ∈ rows, r.format = f ∧ RowCovers r m (v.toNat % 256) ∧ r.op = op) :
    (rowsFor f m v).map OpcodeRow.op = [op] := by
  obtain ⟨r, hr, rfl, hcov, rfl⟩ := h
  have hsel := (selects_iff_covers (hrows hr) m v).mpr hcov
  rw [rowsFor, filter_eq_singleton _ (hrows hr) (by simp [hsel]), List.map_singleton]
  refine opcodeRows_disjoint.imp fun {x y} hxy hx => ?_
  simp only [Bool.and_eq_true, beq_iff_eq] at hx
  obtain ⟨hf, hx⟩ := hx
  by_cases hy : y.format = r.format
  · simp [not_selects_both (hxy (hf.trans hy.symm)) hx]
  · simp [hy]

theorem packetRows_cover (m : Mode) (cb b1 b2 b3 : Byte) :
    ∃ r ∈ packetRows, r.format = .inPkt ∧ RowCovers r m cb.toNat ∧ r.op = (decode m (.packet ⟨cb, b1, b2, b3⟩)).op := by
  have hlt := cb.isLt
  rw [controlBytePicksTheOperation.1]
  split_ifs <;> simp [packetRows, RowCovers, Instr.op] <;> omega

theorem wordRows_cover (m : Mode) (w : Word) :
    ∃ r ∈ wordRows, r.format = .hostWord ∧ RowCovers r m (w.toNat % 256) ∧ r.op = (decode m (.word w)).op := by
  have hlt : w.toNat % 256 < 256 := Nat.mod_lt _ (by omega)
  cases m with
  | idle =>
    rw [(modeAndStatusPickTheWordOperation w).1]
    split_ifs <;> simp [wordRows, RowCovers, Instr.op] <;> omega
  | accumulating =>
    rw [(modeAndStatusPickTheWordOperation w).2]
    simp [wordRows, RowCovers, Instr.op]
    omega

theorem byteRows_cover (m : Mode) (b : Byte) :
    ∃ r ∈ byteRows, r.format = .outByte ∧ RowCovers r m b.toNat ∧ r.op = (decode m (.byte b)).op := by
  have hlt := b.isLt
  cases m with
  | idle =>
    rw [(modeAndBytePickTheByteOperation b).1]
    split_ifs <;> simp [byteRows, RowCovers, Instr.op] <;> omega
  | accumulating =>
    rw [(modeAndBytePickTheByteOperation b).2]
    split_ifs <;> simp [byteRows, RowCovers, Instr.op] <;> omega

/-- Settles O10: the intervals of a format's rows cover its classification table, and a row that covers a token is the
only one that matches it. -/
theorem exactlyOneTableRowMatches : Obligations.ExactlyOneTableRowMatches := by
  refine ⟨fun m p => ?_, fun m w => ?_, fun m b => ?_⟩
  · have hlow : (p.p3 ++ p.p2 ++ p.p1 ++ p.p0).toNat % 256 = p.p0.toNat := by
      rw [← toNat_lane_zero, ← packWord_eq_append, lane_packWord_zero]
    exact rowsFor_of_covers (by simp [opcodeRows]) (hlow ▸ packetRows_cover m ..)
  · exact rowsFor_of_covers (by simp [opcodeRows]) (wordRows_cover m w)
  · have hlow : (b.setWidth 32).toNat % 256 = b.toNat := by
      simpa using Nat.mod_eq_of_lt b.isLt
    exact rowsFor_of_covers (by simp [opcodeRows]) (hlow ▸ byteRows_cover m b)

/-! ## Table words (R72) -/

/-- A table word is a byte up to a width of 8 bits, and a packet beyond; bits of no width make no token. -/
theorem tableToken_cases (nbits w : Nat) :
    (nbits = 0 ∧ tableToken nbits w = none) ∨
    (nbits ≤ 8 ∧ ∃ b, tableToken nbits w = some (.byte b)) ∨
    (¬ nbits ≤ 8 ∧ ∃ p, tableToken nbits w = some (.packet p)) := by
  unfold tableToken
  split_ifs with h0 h8
  · exact .inl ⟨h0, rfl⟩
  · exact .inr (.inl ⟨h8, _, rfl⟩)
  · exact .inr (.inr ⟨h8, _, rfl⟩)

/-- The decoder reads the token of a table word in the reset mode. -/
theorem decodeTableWord_of_token {nbits w : Nat} {tok : Token} (h : tableToken nbits w = some tok) :
    decodeTableWord nbits w = some (decode .idle tok) := by
  obtain ⟨-, hnone⟩ | ⟨h8, b, hb⟩ | ⟨h8, p, hp⟩ := tableToken_cases nbits w
  · cases hnone.symm.trans h
  · cases hb.symm.trans h
    simp only [decodeTableWord, h, if_pos h8]
    rfl
  · cases hp.symm.trans h
    simp only [decodeTableWord, h, if_neg h8]
    rfl

theorem step_input_cons (tok : Token) {s : State} (hrun : s.runState = .running) :
    step { s with input := tok :: s.input } = exec (decode s.outMode tok) s :=
  step_of_input_cons rfl (.inl hrun)

/-- Settles O5: the token is put at the head of the inputs, in the mode in which the table word was read. -/
theorem tableWordIsTheNextOperation : Obligations.TableWordIsTheNextOperation := by
  intro s nbits w i hi
  rw [State.withFetchWord, deliver]
  obtain ⟨-, hnone⟩ | ⟨h8, b, hb⟩ | ⟨h8, p, hp⟩ := tableToken_cases nbits w
  · simp [decodeTableWord, hnone] at hi
  · cases (decodeTableWord_of_token hb).symm.trans hi
    rw [hb, if_pos h8]
    exact step_input_cons (.byte b) (s := { s with outMode := .idle, runState := .running }) rfl
  · cases (decodeTableWord_of_token hp).symm.trans hi
    rw [hp, if_neg h8]
    exact step_input_cons (.packet p) (s := { s with runState := .running }) rfl

/-! ## The words that hold a byte sequence (R86) -/

theorem length_sysexWords (bs : List Byte) : (sysexWords bs).length = (bs.length + 3) / 4 := by
  induction bs using sysexWords.induct with
  | case5 a b c d rest ih =>
    simp only [sysexWords, List.length_cons, ih]
    omega
  | _ => simp [sysexWords]

theorem wordBytes_sysexWords (bs : List Byte) :
    wordBytes (sysexWords bs) = bs ++ List.replicate (4 * ((bs.length + 3) / 4) - bs.length) 0 := by
  induction bs using sysexWords.induct with
  | case5 a b c d rest ih =>
    have hfill : 4 * ((rest.length + 1 + 1 + 1 + 1 + 3) / 4) - (rest.length + 1 + 1 + 1 + 1) =
        4 * ((rest.length + 3) / 4) - rest.length := by omega
    simpa [sysexWords, wordBytes, hfill] using ih
  | _ => simp [sysexWords, wordBytes, List.replicate]

/-- Settles O37, by recursion on the bytes, four at a time. -/
theorem sysexWordsHoldTheBytes : Obligations.SysexWordsHoldTheBytes := fun bs =>
  ⟨length_sysexWords bs, wordBytes_sysexWords bs⟩

end Sys2Proof.Machine

namespace Sys2Proof.Machine

/-! ## Outbound: the bytes of a host word (R51, R102) -/

theorem lane_eq_ofNat (w : Word) (k : Nat) : lane w k = BitVec.ofNat 8 (w.toNat / 2 ^ (8 * k)) := by
  rw [lane, BitVec.extractLsb', Nat.shiftRight_eq_div_pow]

theorem lanes_eq_ofNat (w : Word) :
    lanes w = [BitVec.ofNat 8 w.toNat, BitVec.ofNat 8 (w.toNat / 256), BitVec.ofNat 8 (w.toNat / 65536),
      BitVec.ofNat 8 (w.toNat / 16777216)] := by
  simp [lanes, lane_eq_ofNat]

/-- The channel CIN is the high nibble of the status byte. -/
theorem channelCin_eq_ofNat (e0 : Byte) : channelCin e0 = BitVec.ofNat 8 (e0.toNat / 16) := by
  have hmask : e0.toNat &&& 0xF0 = 16 * (e0.toNat % 256 / 16) := and_highMask e0.toNat (k := 4) (by omega)
  have hlt := e0.isLt
  apply BitVec.eq_of_toNat_eq
  simp only [channelCin, BitVec.toNat_ushiftRight, BitVec.toNat_and, BitVec.toNat_ofNat, BitVec.ofNat_eq_ofNat,
    Nat.shiftRight_eq_div_pow, Nat.reducePow, Nat.reduceMod, hmask]
  omega

theorem channelPacket_eq_ofNat (w : Word) :
    channelPacket w = ⟨BitVec.ofNat 8 (w.toNat % 256 / 16), BitVec.ofNat 8 w.toNat, BitVec.ofNat 8 (w.toNat / 256),
      BitVec.ofNat 8 (w.toNat / 65536)⟩ := by
  rw [channelPacket, channelCin_eq_ofNat, toNat_lane_zero]
  simp [lane_eq_ofNat]

/-- Settles O12: OUT_CHANNEL only queues, and its packet is `channelPacket_eq_ofNat`. -/
theorem outChannelQueuesOnePacket : Obligations.OutChannelQueuesOnePacket := by
  intro w s
  rw [← channelPacket_eq_ofNat]
  rfl

/-! ## The payload of the flushes (R110 to R112)

Packet `g` of either flush carries the cells `3g` to `3g + 2`, so the payload of a flush is a row of cells: those of the
buffer, and then whatever the flush reads beyond its end. -/

@[simp] theorem hardware_outSysexMax : hardware.outSysexMax = 48 := rfl

@[simp] theorem payload_append (ps qs : List Packet) : payload (ps ++ qs) = payload ps ++ payload qs :=
  List.flatMap_append

@[simp] theorem length_payload (ps : List Packet) : (payload ps).length = 3 * ps.length := by
  induction ps with
  | nil => rfl
  | cons q ps ih =>
    change (payload ps).length + 3 = 3 * (ps.length + 1)
    omega

/-- Packets that carry three cells each, one after another, carry all the cells in order. -/
theorem payload_map_range {f : Nat → Packet} {c : Nat → Byte}
    (hf : ∀ g, [(f g).p1, (f g).p2, (f g).p3] = [c (3 * g), c (3 * g + 1), c (3 * g + 2)]) (n : Nat) :
    payload ((List.range n).map f) = (List.range (3 * n)).map c := by
  induction n with
  | zero => rfl
  | succ n ih =>
    have hlast : payload [f n] = [c (3 * n), c (3 * n + 1), c (3 * n + 2)] := hf n
    rw [List.range_succ, List.map_append, List.map_singleton, payload_append, ih, hlast,
      show 3 * (n + 1) = 3 * n + 1 + 1 + 1 by omega, List.range_succ, List.range_succ, List.range_succ]
    simp

/-- The first `m` cells of a buffer: its bytes, and then the cells beyond its length. -/
theorem map_range_getD (buf : List Byte) (d : Nat → Byte) (m : Nat) :
    (List.range m).map (fun i => buf.getD i (d i)) =
      buf.take m ++ (List.range' buf.length (m - buf.length)).map d := by
  apply List.ext_getElem
  · simp only [List.length_map, List.length_append, List.length_take, List.length_range, List.length_range']
    omega
  · intro i hi _
    have him : i < m := by simpa using hi
    by_cases h : i < buf.length
    · simp [h, him]
    · have hsub : buf.length + (i - m ⊓ buf.length) = i := by omega
      simp [List.getElem_append, h, hsub]

theorem terminalCount_le (len : Nat) : len ≤ 3 * terminalCount len := by
  rw [terminalCount]
  omega

theorem payload_terminalPackets (buf : List Byte) :
    payload (terminalPackets buf) = buf ++ List.replicate (3 * terminalCount buf.length - buf.length) 0 := by
  rw [terminalPackets, payload_map_range (c := fun i => buf.getD i 0) fun _ => rfl,
    map_range_getD buf (fun _ => 0), List.take_of_length_le (terminalCount_le _), List.map_const', List.length_range']

theorem payload_forcedPackets (p : Params) (n : Nat) (buf : List Byte) :
    payload (forcedPackets p n buf) = buf.take (3 * (p.outSysexMax / 3)) ++
      (List.range' buf.length (3 * (p.outSysexMax / 3) - buf.length)).map (Config.deadCell n) := by
  rw [forcedPackets, payload_map_range (c := cell n buf) fun _ => rfl]
  exact map_range_getD ..

theorem payload_forcedPackets_of_le {p : Params} (n : Nat) {buf : List Byte}
    (h : 3 * (p.outSysexMax / 3) ≤ buf.length) :
    payload (forcedPackets p n buf) = buf.take (3 * (p.outSysexMax / 3)) := by
  simp [payload_forcedPackets, Nat.sub_eq_zero_of_le h]

/-! ## The CINs of the flushes -/

theorem forcedPackets_cin {p : Params} {n : Nat} {buf : List Byte} : ∀ q ∈ forcedPackets p n buf, q.p0 = 0x04 := by
  intro q h
  obtain ⟨g, -, rfl⟩ := List.mem_map.mp h
  rfl

/-- A terminal flush is some full groups and the last group. -/
theorem terminalPackets_eq_append {buf : List Byte} (h : buf ≠ []) :
    terminalPackets buf = (List.range ((buf.length - 1) / 3)).map (terminalPacket buf) ++
      [terminalPacket buf ((buf.length - 1) / 3)] := by
  have hpos := List.length_pos_of_ne_nil h
  have hcount : terminalCount buf.length = (buf.length - 1) / 3 + 1 := by
    rw [terminalCount]
    omega
  rw [terminalPackets, hcount, List.range_succ, List.map_append, List.map_singleton]

theorem terminalPacket_cin_of_lt {buf : List Byte} {g : Nat} (h : g < (buf.length - 1) / 3) :
    (terminalPacket buf g).p0 = 0x04 := by
  refine if_pos ?_
  rw [terminalCount]
  omega

theorem terminalPacket_cin_last {buf : List Byte} (h : buf ≠ []) :
    (terminalPacket buf ((buf.length - 1) / 3)).p0 = BitVec.ofNat 8 (4 + ((buf.length - 1) % 3 + 1)) := by
  have hpos := List.length_pos_of_ne_nil h
  have hlast : ¬ (buf.length - 1) / 3 + 1 < terminalCount buf.length := by
    rw [terminalCount]
    omega
  have hgroup : min 3 (buf.length - 3 * ((buf.length - 1) / 3)) = (buf.length - 1) % 3 + 1 := by omega
  simp only [terminalPacket, if_neg hlast, hgroup]
  exact (BitVec.ofNat_add 4 _).symm

/-! ## What the flushes send -/

/-- R110 and R111 hold of a terminal flush. -/
theorem terminalFraming_terminalPackets {buf : List Byte} (h : buf ≠ []) :
    TerminalFraming buf (terminalPackets buf) := by
  refine ⟨length_terminalPackets buf, payload_terminalPackets buf, ?_, ?_⟩
  · rw [terminalPackets_eq_append h, List.dropLast_concat, List.forall_mem_map]
    exact fun g hg => terminalPacket_cin_of_lt (List.mem_range.mp hg)
  · rw [terminalPackets_eq_append h, List.getLast?_concat, Option.map_some, terminalPacket_cin_last h]

/-- R112 holds of a forced flush: its payload is the buffer's first 48 cells, dead ones included. -/
theorem forcedFraming_forcedPackets (n : Nat) (buf : List Byte) :
    ForcedFraming (buf.take 48 ++ (List.range' buf.length (48 - buf.length)).map (Config.deadCell n))
      (forcedPackets hardware n buf) :=
  ⟨length_forcedPackets .., forcedPackets_cin, payload_forcedPackets ..⟩

theorem forcedFraming_take (n : Nat) {buf : List Byte} (h : 48 ≤ buf.length) :
    ForcedFraming (buf.take 48) (forcedPackets hardware n buf) :=
  ⟨length_forcedPackets .., forcedPackets_cin, payload_forcedPackets_of_le n h⟩

theorem forcedFraming_of_length_eq (n : Nat) {buf : List Byte} (h : buf.length = 48) :
    ForcedFraming buf (forcedPackets hardware n buf) := by
  simpa only [List.take_of_length_le h.le] using forcedFraming_take n h.ge

/-- Settles O17: the packets are the terminal flush's. -/
theorem flushTerminalFramesTheBuffer : Obligations.FlushTerminalFramesTheBuffer := by
  intro s
  obtain ⟨hnil, e⟩ | ⟨hne, e⟩ := flushTerminal_spec hardware s
  · exact ⟨fun _ => congrArg _ e, fun hne => absurd hnil hne⟩
  · exact ⟨fun hnil => absurd hnil hne, fun _ => ⟨_, terminalFraming_terminalPackets hne, congrArg _ e⟩⟩

/-- Settles O18, by the length: the packets are the forced flush's, and only a short buffer has dead cells. -/
theorem flushForcedSendsSixteenTriples : Obligations.FlushForcedSendsSixteenTriples := by
  intro s
  obtain ⟨hnil, e⟩ | ⟨hne, e⟩ := flushForced_spec hardware s
  · exact ⟨fun _ => congrArg _ e, by simp [hnil]⟩
  · rw [hardware_outSysexMax] at e
    refine ⟨fun hnil => absurd hnil hne, fun h => ?_, fun _ h => ?_, fun h => ?_⟩
    · rw [if_neg h.not_lt] at e
      exact ⟨_, forcedFraming_of_length_eq _ h, congrArg _ e⟩
    · have hframed := forcedFraming_forcedPackets s.cellDraws s.outBuf
      rw [if_pos h] at e
      rw [List.take_of_length_le h.le] at hframed
      exact ⟨_, _, hframed, congrArg _ e⟩
    · rw [if_neg h.not_gt] at e
      exact ⟨_, forcedFraming_take _ h.le, congrArg _ e⟩

/-! ## The byte operations -/

/-- Settles O13: BYTE_SKIP is the identity. -/
theorem byteSkipChangesNothing : Obligations.ByteSkipChangesNothing := fun _ _ => rfl

/-- Settles O15, by the two cases of BYTE_DATA. -/
theorem byteDataAppendsAndFlushesAt48 : Obligations.ByteDataAppendsAndFlushesAt48 := by
  intro b s
  obtain ⟨hne, e⟩ | ⟨heq, e⟩ := byteData_spec hardware b s
  · exact ⟨fun _ => congrArg _ e, fun h => absurd (congrArg (· + 1) h) hne⟩
  · have hlen : (s.outBuf ++ [b]).length = 48 := by simpa using heq
    exact ⟨fun h => absurd (Nat.succ.inj heq) h, fun _ => ⟨_, forcedFraming_of_length_eq _ hlen, congrArg _ e⟩⟩

/-- Settles O16: the buffer with its terminator is not empty, so the terminal flush frames it. -/
theorem byteTermFramesTheStream : Obligations.ByteTermFramesTheStream := by
  intro b s
  exact ⟨_, terminalFraming_terminalPackets (by simp), congrArg _ (byteTerm_spec hardware b s)⟩

/-- Settles O14: BYTE_OPEN goes on as BYTE_DATA, which appends to an empty buffer. -/
theorem byteOpenEntersAccumulating : Obligations.ByteOpenEntersAccumulating := by
  refine ⟨fun s => rfl, fun s hnil => ?_, fun p s hopen => ?_⟩
  · have happend := (byteDataAppendsAndFlushesAt48 opener (openOutMode s)).1 (by simp [hnil])
    rwa [openOutMode_outBuf, hnil] at happend
  · simp [byteOpen, hopen, openOutMode]

/-! ### OutByte by the mode and the byte (R104) -/

section OutByte

variable {p : Params} {b : Byte} {s : State}

theorem outByte_idle_opener (hmode : s.outMode = .idle) : outByte p opener s = byteOpen p s := by
  simp [outByte, hmode]

theorem outByte_idle_of_ne (hmode : s.outMode = .idle) (hb : b ≠ opener) : outByte p b s = s := by
  simp [outByte, hmode, hb, byteSkip]

theorem outByte_accumulating_data (hmode : s.outMode = .accumulating) (hb : isTerminator b = false) :
    outByte p b s = byteData p b s := by
  simp [outByte, hmode, hb]

theorem outByte_accumulating_terminator (hmode : s.outMode = .accumulating) (hb : isTerminator b = true) :
    outByte p b s = byteTerm p b s := by
  simp [outByte, hmode, hb]

end OutByte

theorem isTerminator_of_ge {b : Byte} (hge : 128 ≤ b.toNat) (hne : b ≠ 0xF0) : isTerminator b = true :=
  isTerminator_iff.mpr ⟨hge, fun h => hne (BitVec.eq_of_toNat_eq h)⟩

/-- R109: 0xF0 ends no stream, though it has bit 7 set. -/
theorem not_isTerminator_of_data {b : Byte} (h : b.toNat < 128 ∨ b = 0xF0) : isTerminator b = false := by
  obtain h | rfl := h
  · rw [Bool.eq_false_iff, ne_eq, isTerminator_iff]
    omega
  · rfl

/-- A byte's operation, picked in the mode of the moment, is OutByte. -/
theorem exec_decodeByte (b : Byte) (s : State) :
    exec (decode s.outMode (.byte b)) s = .next (outByte hardware b s) := by
  cases hmode : s.outMode with
  | idle =>
    simp only [decode, decodeByte, outByte, hmode]
    split_ifs <;> rfl
  | accumulating =>
    simp only [decode, decodeByte, outByte, hmode]
    split_ifs <;> rfl

/-- Settles O19: one clause for each branch of OutByte. -/
theorem outByteRunsThePickedOperation : Obligations.OutByteRunsThePickedOperation := by
  intro b s
  refine ⟨exec_decodeByte b s, outByte_idle_of_ne, fun hmode _ hlt => ?_, fun hmode hne hge => ?_, fun hmode => ?_,
    fun hmode => ?_⟩
  · exact congrArg _ (outByte_accumulating_data hmode (not_isTerminator_of_data (.inl hlt))).symm
  · exact congrArg _ (outByte_accumulating_terminator hmode (isTerminator_of_ge hge hne)).symm
  · exact congrArg _ (outByte_idle_opener hmode).symm
  · exact congrArg _ (outByte_accumulating_data hmode rfl).symm

/-! ## Words and batches -/

/-- The operations of several bytes, each picked in the mode before it, examine the bytes in order. -/
theorem runTokens_bytes (bs : List Byte) (s : State) :
    runTokens (bs.map Token.byte) s = .next (outBytes hardware bs s) := by
  induction bs generalizing s with
  | nil => rfl
  | cons b bs ih => simp [runTokens, exec_decodeByte, ih, outBytes]

/-- Settles O20: OUT_SYSEX_WORD examines the word's lanes in order. -/
theorem outSysexWordExaminesFourBytes : Obligations.OutSysexWordExaminesFourBytes := by
  intro w s
  refine ⟨_, rfl, ?_⟩
  rw [outSysexWord, ← runTokens_bytes, lanes_eq_ofNat]
  rfl

/-- Settles O21: a batch in words is one of its two forms. -/
theorem outBatchRunsItsWordsInOrder : Obligations.OutBatchRunsItsWordsInOrder := fun _ s =>
  ⟨_, rfl, runTokens_batchParts (mem_batchParts.mpr (.inr rfl)) s⟩

/-! ## Write calls (R116 to R118, R193) -/

theorem packetBytes_eq_flatMap (ps : List Packet) : packetBytes ps = ps.flatMap fun p => [p.p0, p.p1, p.p2, p.p3] := by
  induction ps with
  | nil => rfl
  | cons q ps ih => simp [packetBytes, bytesOfPacket, ih]

/-- With something queued, WriteQueue is one call that carries all of it. -/
theorem writeQueue_of_ne_nil {s : State} (h : s.outQ ≠ []) : ∃ r, writeQueue s = { s with
    outQ := []
    trace := s.trace ++ [.transportWrite (packetBytes s.outQ) r]
    writeDraws := s.writeDraws + 1 } := by
  obtain ⟨hnil, -⟩ | ⟨-, e⟩ := writeQueue_spec s
  · exact absurd hnil h
  · exact ⟨_, e⟩

/-- Settles O22: BATCH_END is WriteQueue. -/
theorem batchEndWritesTheQueueOnce : Obligations.BatchEndWritesTheQueueOnce := by
  refine fun s => ⟨fun hnil => ?_, fun hne => ?_⟩
  · exact congrArg _ (if_pos hnil)
  · obtain ⟨r, e⟩ := writeQueue_of_ne_nil hne
    rw [packetBytes_eq_flatMap] at e
    exact ⟨r, congrArg _ e⟩

/-- Under `PER_FLUSH` the end of a flush that queued packets is one call with them and all queued before. -/
theorem endFlush_perFlush_of_queued {p : Params} (hgroup : p.writeGrouping = .perFlush) {ps : List Packet}
    (hps : ps ≠ []) (s : State) : ∃ r, endFlush p { s with outBuf := [], outQ := s.outQ ++ ps } = { s with
      outBuf := [], outQ := []
      trace := s.trace ++ [.transportWrite (packetBytes (s.outQ ++ ps)) r]
      writeDraws := s.writeDraws + 1 } := by
  rw [endFlush_perFlush hgroup]
  exact writeQueue_of_ne_nil (s := { s with outBuf := [], outQ := s.outQ ++ ps }) (by simp [hps])

/-- Settles O23: either flush queues at least one packet, and so ends with the call. -/
theorem perFlushWritesAtEveryFlush : Obligations.PerFlushWritesAtEveryFlush := by
  refine fun p s hgroup hmax hbuf => ⟨?_, fun hlen => ?_⟩
  · obtain ⟨hnil, -⟩ | ⟨-, e⟩ := flushTerminal_spec p s
    · exact absurd hnil hbuf
    have hne : terminalPackets s.outBuf ≠ [] := by simp [terminalPackets_eq_append hbuf]
    obtain ⟨r, hr⟩ := endFlush_perFlush_of_queued hgroup hne s
    exact ⟨_, r, terminalFraming_terminalPackets hbuf, e.trans hr⟩
  · obtain ⟨hnil, -⟩ | ⟨-, e⟩ := flushForced_spec p s
    · exact absurd hnil hbuf
    have hne : forcedPackets p s.cellDraws s.outBuf ≠ [] := by
      rw [← List.length_pos_iff, length_forcedPackets]
      omega
    obtain ⟨r, hr⟩ := endFlush_perFlush_of_queued hgroup hne s
    rw [if_neg hlen.not_lt] at e
    exact ⟨_, r, length_forcedPackets .., forcedPackets_cin, payload_forcedPackets_of_le _ (by omega), e.trans hr⟩

/-- Settles O24: the call is recorded, and no field of the block is written. -/
theorem writeResultsAreNotConsumed : Obligations.WriteResultsAreNotConsumed := by
  refine fun bs r s => ⟨rfl, ?_⟩
  rw [transportWrite_trace, writeCalls_append]
  rfl

/-! ## One stream of SysEx bytes (R114)

While the bytes of a stream come in, the packets sent and the buffer hold the bytes so far, and each forced flush sends
16 packets. -/

/-- The state `u` after the data bytes `ds` of a stream that began in `s`: `ps` are the packets of its forced
flushes. -/
structure Streaming (s : State) (ds : List Byte) (ps : List Packet) (u : State) : Prop where
  outMode : u.outMode = .accumulating
  outQ : u.outQ = s.outQ ++ ps
  cin : ∀ q ∈ ps, q.p0 = 0x04
  bytes : payload ps ++ u.outBuf = ds
  flushes : 16 ∣ ps.length
  short : u.outBuf.length < 48

section Stream

variable {s u : State} {ds : List Byte} {ps : List Packet}

theorem Streaming.start (hmode : s.outMode = .accumulating) (hbuf : s.outBuf = []) : Streaming s [] [] s where
  outMode := hmode
  outQ := (List.append_nil _).symm
  cin := nofun
  bytes := hbuf
  flushes := ⟨0, rfl⟩
  short := by simp [hbuf]

/-- A data byte is appended, or fills the buffer and is sent with it. -/
theorem Streaming.after_data (h : Streaming s ds ps u) {b : Byte} (hb : isTerminator b = false) :
    ∃ qs, Streaming s (ds ++ [b]) qs (outByte hardware b u) := by
  rw [outByte_accumulating_data h.outMode hb]
  have hbytes : payload ps ++ (u.outBuf ++ [b]) = ds ++ [b] := by rw [← List.append_assoc, h.bytes]
  obtain ⟨hne, e⟩ | ⟨heq, e⟩ := byteData_spec hardware b u <;> rw [e]
  · refine ⟨ps, h.outMode, h.outQ, h.cin, hbytes, h.flushes, ?_⟩
    have hshort := h.short
    rw [hardware_outSysexMax] at hne
    simp only [List.length_append, List.length_singleton]
    omega
  · have hfull : (u.outBuf ++ [b]).length = 48 := by simpa using heq
    obtain ⟨hlen, hcin, hpay⟩ := forcedFraming_of_length_eq u.cellDraws hfull
    refine ⟨ps ++ forcedPackets hardware u.cellDraws (u.outBuf ++ [b]), h.outMode, ?_, ?_, ?_, ?_, by simp⟩
    · simp [h.outQ]
    · exact List.forall_mem_append.mpr ⟨h.cin, hcin⟩
    · simpa [hpay] using hbytes
    · rw [List.length_append, hlen]
      exact dvd_add h.flushes dvd_rfl

/-- Data bytes from an open, empty buffer. -/
theorem streaming_outBytes (hmode : s.outMode = .accumulating) (hbuf : s.outBuf = [])
    (hds : ∀ b ∈ ds, isTerminator b = false) : ∃ ps, Streaming s ds ps (outBytes hardware ds s) := by
  induction ds using List.reverseRecOn with
  | nil => exact ⟨[], .start hmode hbuf⟩
  | append_singleton ds b ih =>
    obtain ⟨hds, hb⟩ := List.forall_mem_append.mp hds
    obtain ⟨ps, h⟩ := ih hds
    rw [outBytes_append]
    exact h.after_data (hb b (List.mem_singleton_self b))

/-- The packets of the forced flushes carry the whole blocks of 48 bytes, and the buffer the rest. -/
theorem Streaming.lengths (h : Streaming s ds ps u) :
    ps.length = 16 * (ds.length / 48) ∧ u.outBuf.length = ds.length - 48 * (ds.length / 48) := by
  obtain ⟨f, hf⟩ := h.flushes
  have hlen := congrArg List.length h.bytes
  have hshort := h.short
  rw [List.length_append, length_payload] at hlen
  omega

/-- The terminator goes out with the rest of the stream. -/
theorem Streaming.outByte_terminator (h : Streaming s ds ps u) {t : Byte} (ht : isTerminator t = true) :
    outByte hardware t u = { u with
      outMode := .idle, outBuf := [], outQ := s.outQ ++ (ps ++ terminalPackets (u.outBuf ++ [t])) } := by
  rw [outByte_accumulating_terminator h.outMode ht, byteTerm_spec, h.outQ, List.append_assoc]
  rfl

/-- The length `L` of the terminal flush (R114). -/
theorem Streaming.length_rest (h : Streaming s ds ps u) (t : Byte) :
    (u.outBuf ++ [t]).length = ds.length + 1 - 48 * (ds.length / 48) := by
  rw [List.length_append, List.length_singleton, h.lengths.2]
  omega

end Stream

/-- The last packet of a terminal flush is the only one with another CIN than 0x04. -/
theorem countP_cin_terminalPackets {buf : List Byte} (h : buf ≠ []) :
    (terminalPackets buf).countP (fun q => q.p0 == 0x04) = (buf.length - 1) / 3 ∧
      (terminalPackets buf).countP (fun q => q.p0 != 0x04) = 1 := by
  have hfull : ∀ q ∈ (List.range ((buf.length - 1) / 3)).map (terminalPacket buf), q.p0 = 0x04 :=
    List.forall_mem_map.mpr fun g hg => terminalPacket_cin_of_lt (List.mem_range.mp hg)
  have hlast : (terminalPacket buf ((buf.length - 1) / 3)).p0 ≠ 4#8 := by
    rw [terminalPacket_cin_last h, ne_eq, BitVec.toNat_eq, BitVec.toNat_ofNat]
    change ¬ _ = 4
    omega
  rw [terminalPackets_eq_append h, List.countP_append, List.countP_append, List.countP_singleton,
    List.countP_singleton, List.countP_eq_length.mpr fun q hq => beq_iff_eq.mpr (hfull q hq),
    List.countP_eq_zero.mpr fun q hq => by simp [hfull q hq]]
  simp [hlast]

/-- Settles O26: the forced flushes send whole blocks of 48 bytes with CIN 0x04, and the terminator's flush the rest. -/
theorem streamPacketCounts : Obligations.StreamPacketCounts := by
  intro ds t s hmode hbuf hds hge hne
  rw [runTokens_bytes, outBytes_append]
  obtain ⟨ps, h⟩ := streaming_outBytes hmode hbuf fun b hb => not_isTerminator_of_data (hds b hb)
  generalize outBytes hardware ds s = u at h ⊢
  have hrest : u.outBuf ++ [t] ≠ [] := by simp
  obtain ⟨hcount, hpayload, -, hlast⟩ := terminalFraming_terminalPackets hrest
  obtain ⟨hfour, hother⟩ := countP_cin_terminalPackets hrest
  obtain ⟨hsent, -⟩ := h.lengths
  rw [h.length_rest t] at hcount hfour hlast hpayload
  have hlength : (ps ++ terminalPackets (u.outBuf ++ [t])).length =
      16 * (ds.length / 48) + (ds.length + 1 - 48 * (ds.length / 48) + 2) / 3 := by
    rw [List.length_append, hsent, hcount]
  refine ⟨_, _, congrArg _ (h.outByte_terminator (isTerminator_of_ge hge hne)), rfl, rfl, rfl, hlength, ?_, ?_, ?_, ?_⟩
  · rw [List.countP_append, List.countP_eq_length.mpr fun q hq => beq_iff_eq.mpr (h.cin q hq), hsent, hfour]
  · rw [List.countP_append, List.countP_eq_zero.mpr fun q hq => by simp [h.cin q hq], hother]
  · rw [List.getLast?_append_of_ne_nil _ (by simp [terminalPackets_eq_append hrest]), hlast]
  · rw [payload_append, hpayload, ← List.append_assoc, ← List.append_assoc, h.bytes, hlength]
    congr 2
    omega

end Sys2Proof.Machine

namespace Sys2Proof.Machine

/-! ## Inbound: one word of the buffer (R155, R157) -/

/-- The group word holds the buffered bytes low first, with zero fill. -/
theorem lanes_groupWord {buf : List Byte} (h : buf.length ≤ 4) :
    lanes (groupWord buf) = buf ++ List.replicate (4 - buf.length) 0 := by
  rw [groupWord, lanes_packWord]
  match buf, h with
  | [], _ | [_], _ | [_, _], _ | [_, _, _], _ | [_, _, _, _], _ => rfl

@[simp] theorem groupWord_one (a : Byte) : groupWord [a] = a.setWidth 32 := by
  simp [groupWord, packWord]

@[simp] theorem groupWord_two (a b : Byte) : groupWord [a, b] = (0 : BitVec 16) ++ b ++ a :=
  (packWord_eq_append a b 0 0).trans rfl

@[simp] theorem groupWord_three (a b c : Byte) : groupWord [a, b, c] = (0 : Byte) ++ c ++ b ++ a :=
  packWord_eq_append a b c 0

@[simp] theorem groupWord_four (a b c d : Byte) : groupWord [a, b, c, d] = d ++ c ++ b ++ a :=
  packWord_eq_append a b c d

section Operations

variable {s : State}

/-- IN_FLUSH of a buffer that holds something. -/
@[simp] theorem inFlush_of_ne_nil (h : s.inBuf ≠ []) : inFlush s = clearIn (emitHost (groupWord s.inBuf) s) :=
  if_neg h

/-- InAppendCheck into a buffer that the byte does not fill. -/
@[simp] theorem inAppendCheck_of_ne (b : Byte) (h : s.inBuf.length ≠ 3) : inAppendCheck b s = inAppend b s := by
  simp [inAppendCheck, Config.inGroup, h]

/-- InAppendCheck of the byte that completes a group. -/
@[simp] theorem inAppendCheck_of_eq (b : Byte) (h : s.inBuf.length = 3) : inAppendCheck b s = inFlush (inAppend b s) := by
  simp [inAppendCheck, Config.inGroup, h]

end Operations

/-! ## Inbound: the packet operations by the length of the buffer (R157 to R164)

A buffer of known length decides every InAppendCheck and IN_FLUSH of a packet by the rules above, which `simp` runs. -/

/-- Settles O28: the word is the event word in its byte lanes. -/
theorem inEventEmitsOneWord : Obligations.InEventEmitsOneWord := by
  intro cb b1 b2 b3 s
  refine ⟨Config.timestamp s.tsDraws, ?_⟩
  rw [← packWord_eq_append, ← eventWord_eq_packWord]
  rfl

/-- Settles O31: the word is the group word of the buffer. -/
theorem inFlushPacksTheBuffer : Obligations.InFlushPacksTheBuffer := by
  refine fun s => ⟨fun hnil => congrArg _ (if_pos hnil), fun hne hlen => ?_⟩
  exact ⟨_, groupWord s.inBuf, lanes_groupWord hlen, congrArg _ (inFlush_of_ne_nil hne)⟩

/-- Settles O29: the byte that makes four, if any, flushes the group before the next one is appended. -/
theorem inSysexContByBufferLength : Obligations.InSysexContByBufferLength := by
  intro b1 b2 b3 s
  simp only [exec, execInSysexCont, inSysexCont]
  refine ⟨fun h0 => ?_, fun x h1 => ⟨Config.timestamp s.tsDraws, ?_⟩, fun x y h2 => ⟨Config.timestamp s.tsDraws, ?_⟩,
    fun x y z h3 => ⟨Config.timestamp s.tsDraws, ?_⟩⟩
  · simp [h0, inAppend, writeInMode]
  · simp [h1, inAppend, writeInMode, clearIn, emitHost]
  · simp [h2, inAppend, writeInMode, clearIn, emitHost]
  · simp [h3, inAppend, writeInMode, clearIn, emitHost]

theorem inPacket_continuation {q : Packet} (h : q.p0 = 0x04) (s : State) :
    inPacket q s = inSysexCont q.p1 q.p2 q.p3 s :=
  if_pos h

theorem inPacket_terminal {q : Packet} (h : q.p0 = 0x05 ∨ q.p0 = 0x06 ∨ q.p0 = 0x07) (s : State) :
    inPacket q s = inSysexEnd q.p1 q.p2 q.p3 s := by
  obtain h | h | h := h <;> simp [inPacket, h]

/-- The three terminal packets run one procedure. -/
theorem exec_inSysexEnd {i : Instr} {b1 b2 b3 : Byte}
    (hi : i = .inSysexEnd1 b1 b2 b3 ∨ i = .inSysexEnd2 b1 b2 b3 ∨ i = .inSysexEnd3 b1 b2 b3) (s : State) :
    exec i s = .next (inSysexEnd b1 b2 b3 s) := by
  obtain rfl | rfl | rfl := hi <;> rfl

/-- Settles O30: a group that fills before the last byte is flushed first, and then the rest. -/
theorem inSysexEndByBufferLength : Obligations.InSysexEndByBufferLength := by
  intro b1 b2 b3 i s hi
  rw [exec_inSysexEnd hi, inSysexEnd]
  refine ⟨fun h0 => ⟨Config.timestamp s.tsDraws, ?_⟩, fun x h1 => ⟨Config.timestamp s.tsDraws, ?_⟩,
    fun x y h2 => ⟨Config.timestamp s.tsDraws, Config.timestamp (s.tsDraws + 1), ?_⟩,
    fun x y z h3 => ⟨Config.timestamp s.tsDraws, Config.timestamp (s.tsDraws + 1), ?_⟩⟩
  · simp [h0, inAppend, writeInMode, clearIn, emitHost]
  · simp [h1, inAppend, writeInMode, clearIn, emitHost]
  · simp [h2, inAppend, writeInMode, clearIn, emitHost]
  · simp [h3, inAppend, writeInMode, clearIn, emitHost]

/-! ## Inbound: CHUNK (R150 to R153) -/

/-- Settles O32: the tests of `chunk_spec` at this hardware's limit of 64 bytes. -/
theorem chunkTestsStatusLengthAlignment : Obligations.ChunkTestsStatusLengthAlignment := by
  intro r s
  have hmax : hardware.maxChunkBytes = 64 := rfl
  obtain ⟨hst, e⟩ | ⟨hst, hlong, e⟩ | ⟨hst, hlen, halign, e⟩ | ⟨hst, hlen, halign, e⟩ := chunk_spec hardware r s
  · exact ⟨fun _ => e, fun h => absurd h hst, fun h => absurd h hst⟩
  · exact ⟨fun h => absurd hst h, fun _ _ => e, fun _ h => absurd hlong (by omega)⟩
  · exact ⟨fun h => absurd hst h, fun _ h => absurd hlen (by omega), fun _ _ _ => e⟩
  · exact ⟨fun h => absurd hst h, fun _ h => absurd hlen (by omega), fun _ _ h => absurd halign h⟩

/-- Settles O33: the packets of a stream are the parts of its read. -/
theorem chunkRunsItsPacketsInOrder : Obligations.ChunkRunsItsPacketsInOrder := by
  intro ps s hps
  have hlen : 4 * ps.length ≤ hardware.maxChunkBytes := Nat.mul_le_mul_left 4 hps
  have hparts : ps.map Token.packet ∈ readParts ⟨.success, packetBytes ps⟩ := by
    simp [mem_readParts, hlen]
  rw [← packetBytes_eq_flatMap]
  exact ⟨_, (runTokens_readParts hparts s).symm.trans (runTokens_packets ps s), runTokens_packets ps s⟩

/-- CHUNK takes every read that the block's contract admits (R150 to R153). -/
theorem chunk_admitted {r : ReadResult} (h : r.status ≠ .success ∨ (r.bytes.length ≤ 64 ∧ r.bytes.length % 4 = 0))
    (s : State) : ∃ t, chunk hardware r s = .next t := by
  have hmax : hardware.maxChunkBytes = 64 := rfl
  obtain ⟨-, e⟩ | ⟨hst, hlong, -⟩ | ⟨hst, -, halign, -⟩ | ⟨-, -, -, e⟩ := chunk_spec hardware r s
  · exact ⟨_, e⟩
  · obtain ⟨hlen, -⟩ := h.resolve_left (· hst)
    omega
  · obtain ⟨-, hzero⟩ := h.resolve_left (· hst)
    exact absurd hzero halign
  · exact ⟨_, e⟩

/-- Settles O39: a running loop stops, or goes on to the chunk. -/
theorem iterateAndChunkComplete : Obligations.IterateAndChunkComplete := by
  refine fun ws r s hr => ⟨chunk_admitted hr s, fun hrun => ?_⟩
  obtain ⟨hstop, -⟩ | ⟨-, -, e⟩ | ⟨-, -, e⟩ := iterate_spec hardware ws r s
  · cases hrun.symm.trans hstop
  · exact ⟨_, e⟩
  · obtain ⟨t, ht⟩ := chunk_admitted hr (outBatch hardware ws s)
    exact ⟨t, e.trans ht⟩

/-! ## The inbound half reads no payload byte (R165)

To an observer who sees no payload byte, the buffer is its length and each word a tick. Two runs of packets with the
same control bytes are twins to such an observer. -/

/-- The inbound half without its payload bytes. What it must leave as it is was settled with `inboundHalf` (O49). -/
def inboundShape : Half (Mode × Nat) Unit Unit where
  reads s := (s.inMode, s.inBuf.length)
  leaves _ := ()
  emits s := List.replicate (hostWords s.trace).length ()

namespace Half.Twin

section Shape

variable {s₀ s₀' s s' : State}

theorem shape_inMode_eq (h : inboundShape.Twin s₀ s₀' s s') : s.inMode = s'.inMode :=
  congrArg (·.1) h.reads

theorem shape_length_eq (h : inboundShape.Twin s₀ s₀' s s') : s.inBuf.length = s'.inBuf.length :=
  congrArg (·.2) h.reads

theorem shape_emitHost (h : inboundShape.Twin s₀ s₀' s s') (w w' : Word) :
    inboundShape.Twin s₀ s₀' (emitHost w s) (emitHost w' s') :=
  h.extend [()] h.reads rfl rfl (by simp [inboundShape, hostWords, List.replicate_succ'])
    (by simp [inboundShape, hostWords, List.replicate_succ'])

theorem shape_writeInMode (h : inboundShape.Twin s₀ s₀' s s') (m : Mode) :
    inboundShape.Twin s₀ s₀' (writeInMode m s) (writeInMode m s') :=
  h.silent (by simp [inboundShape, h.shape_length_eq]) rfl rfl rfl rfl

theorem shape_inAppend (h : inboundShape.Twin s₀ s₀' s s') (b b' : Byte) :
    inboundShape.Twin s₀ s₀' (inAppend b s) (inAppend b' s') :=
  h.silent (by simp [inboundShape, h.shape_inMode_eq, h.shape_length_eq]) rfl rfl rfl rfl

theorem shape_clearIn (h : inboundShape.Twin s₀ s₀' s s') : inboundShape.Twin s₀ s₀' (clearIn s) (clearIn s') :=
  h.silent (by simp [inboundShape, h.shape_inMode_eq]) rfl rfl rfl rfl

/-- IN_FLUSH asks only whether the buffer is empty (R157). -/
theorem shape_inFlush (h : inboundShape.Twin s₀ s₀' s s') : inboundShape.Twin s₀ s₀' (inFlush s) (inFlush s') := by
  have hnil : s.inBuf = [] ↔ s'.inBuf = [] := by
    rw [← List.length_eq_zero_iff, ← List.length_eq_zero_iff, h.shape_length_eq]
  simp only [inFlush, hnil]
  split
  · exact h
  · exact (h.shape_emitHost _ _).shape_clearIn

/-- InAppendCheck asks only for the buffer's length (R155). -/
theorem shape_inAppendCheck (h : inboundShape.Twin s₀ s₀' s s') (b b' : Byte) :
    inboundShape.Twin s₀ s₀' (inAppendCheck b s) (inAppendCheck b' s') := by
  have happend := h.shape_inAppend b b'
  simp only [inAppendCheck, happend.shape_length_eq]
  split
  · exact happend.shape_inFlush
  · exact happend

theorem shape_inSysexCont (h : inboundShape.Twin s₀ s₀' s s') (b1 b2 b3 b1' b2' b3' : Byte) :
    inboundShape.Twin s₀ s₀' (inSysexCont b1 b2 b3 s) (inSysexCont b1' b2' b3' s') :=
  (((h.shape_inAppendCheck b1 b1').shape_inAppendCheck b2 b2').shape_inAppendCheck b3 b3').shape_writeInMode
    .accumulating

theorem shape_inSysexEnd (h : inboundShape.Twin s₀ s₀' s s') (b1 b2 b3 b1' b2' b3' : Byte) :
    inboundShape.Twin s₀ s₀' (inSysexEnd b1 b2 b3 s) (inSysexEnd b1' b2' b3' s') :=
  (((h.shape_inAppendCheck b1 b1').shape_inAppendCheck b2 b2').shape_inAppend b3 b3').shape_inFlush.shape_writeInMode
    .idle

/-- The control byte alone picks the packet operation (R154). -/
theorem shape_inPacket (h : inboundShape.Twin s₀ s₀' s s') {q q' : Packet} (hcb : q.p0 = q'.p0) :
    inboundShape.Twin s₀ s₀' (inPacket q s) (inPacket q' s') := by
  have hend := h.shape_inSysexEnd q.p1 q.p2 q.p3 q'.p1 q'.p2 q'.p3
  simp only [inPacket, hcb]
  split_ifs
  · exact h.shape_inSysexCont ..
  · exact hend
  · exact hend
  · exact hend
  · exact h.shape_emitHost _ _

theorem shape_inPackets (h : inboundShape.Twin s₀ s₀' s s') {ps qs : List Packet}
    (hcb : ps.map Packet.p0 = qs.map Packet.p0) :
    inboundShape.Twin s₀ s₀' (inPackets ps s) (inPackets qs s') := by
  induction ps generalizing qs s s' with
  | nil =>
    cases List.map_eq_nil_iff.mp hcb.symm
    exact h
  | cons q ps ih =>
    obtain ⟨q', qs, rfl, hq, hqs⟩ := List.map_eq_cons_iff.mp hcb.symm
    exact ih (h.shape_inPacket hq.symm) hqs.symm

end Shape

end Half.Twin

/-- The words that some packets emit come after those before (R61). -/
theorem hostWords_inPackets (ps : List Packet) (s : State) :
    ∃ ws, hostWords (inPackets ps s).trace = hostWords s.trace ++ ws := by
  obtain ⟨es, he⟩ := (Moves.inPackets (s₀ := s) .refl ps).trace_grows
  exact ⟨hostWords es, by rw [he, hostWords_append]⟩

/-- Settles O34: the two runs are twins without their payload bytes. -/
theorem inboundNeverInspectsPayload : Obligations.InboundNeverInspectsPayload := by
  intro ps qs s s' hcb hlen hmode
  have htwin := (Half.Twin.start (H := inboundShape) (Prod.ext hmode hlen)).shape_inPackets hcb
  obtain ⟨ws, hw⟩ := hostWords_inPackets ps s
  obtain ⟨ws', hw'⟩ := hostWords_inPackets qs s'
  refine ⟨_, _, ws, ws', runTokens_packets ps s, runTokens_packets qs s', hw, hw', ?_,
    htwin.shape_length_eq, htwin.shape_inMode_eq⟩
  obtain ⟨ticks, ht, ht'⟩ := htwin.emits
  have hcount := congrArg List.length ht
  have hcount' := congrArg List.length ht'
  simp only [inboundShape, hw, hw', List.length_append, List.length_replicate] at hcount hcount'
  omega

/-! ## One inbound stream of SysEx bytes (R166)

While the bytes of a stream come in, the words emitted and the buffer hold the bytes so far. -/

/-- The state `u` after the bytes `ds` of a stream that began in `s` with an empty buffer: `ws` are the words of its
full groups. -/
structure Grouping (s : State) (ds : List Byte) (ws : List Word) (u : State) : Prop where
  words : hostWords u.trace = hostWords s.trace ++ ws
  bytes : wordBytes ws ++ u.inBuf = ds
  short : u.inBuf.length < 4

@[simp] theorem wordBytes_append (ws vs : List Word) : wordBytes (ws ++ vs) = wordBytes ws ++ wordBytes vs :=
  List.flatMap_append

@[simp] theorem length_wordBytes (ws : List Word) : (wordBytes ws).length = 4 * ws.length := by
  induction ws with
  | nil => rfl
  | cons w ws ih =>
    change (wordBytes ws).length + 4 = 4 * (ws.length + 1)
    omega

section Stream

variable {s u : State} {ds : List Byte} {ws : List Word}

theorem Grouping.start (hbuf : s.inBuf = []) : Grouping s [] [] s where
  words := (List.append_nil _).symm
  bytes := hbuf
  short := by simp [hbuf]

/-- IN_FLUSH ends the stream's last group with zero bytes; it holds for a full group too, before it is flushed. -/
theorem hostWords_inFlush (hwords : hostWords u.trace = hostWords s.trace ++ ws) (hne : u.inBuf ≠ [])
    (hlen : u.inBuf.length ≤ 4) : ∃ vs, hostWords (inFlush u).trace = hostWords s.trace ++ vs ∧
      wordBytes vs = wordBytes ws ++ u.inBuf ++ List.replicate (4 - u.inBuf.length) 0 := by
  refine ⟨ws ++ [groupWord u.inBuf], ?_, ?_⟩
  · simp [inFlush_of_ne_nil hne, hwords, hostWords]
  · simpa [wordBytes] using lanes_groupWord hlen

/-- A byte is appended, or completes a group and is emitted with it. -/
theorem Grouping.after_inAppendCheck (h : Grouping s ds ws u) (b : Byte) :
    ∃ vs, Grouping s (ds ++ [b]) vs (inAppendCheck b u) := by
  have hbytes : wordBytes ws ++ (u.inBuf ++ [b]) = ds ++ [b] := by rw [← List.append_assoc, h.bytes]
  have hshort := h.short
  by_cases hfull : u.inBuf.length = 3
  · rw [inAppendCheck_of_eq b hfull]
    obtain ⟨vs, hvs, hfill⟩ := hostWords_inFlush (u := inAppend b u) h.words (by simp) (by simp [hfull])
    exact ⟨vs, hvs, by simpa [inFlush_inBuf, hfull, hbytes] using hfill, by simp [inFlush_inBuf]⟩
  · rw [inAppendCheck_of_ne b hfull]
    refine ⟨ws, h.words, hbytes, ?_⟩
    simp only [inAppend_inBuf, List.length_append, List.length_singleton]
    omega

/-- The stream does not look at the mode (R159). -/
theorem Grouping.after_writeInMode (h : Grouping s ds ws u) (m : Mode) : Grouping s ds ws (writeInMode m u) :=
  ⟨h.words, h.bytes, h.short⟩

/-- A continuation packet adds its three bytes to the stream. -/
theorem Grouping.after_inSysexCont (h : Grouping s ds ws u) (b1 b2 b3 : Byte) :
    ∃ vs, Grouping s (ds ++ [b1, b2, b3]) vs (inSysexCont b1 b2 b3 u) := by
  obtain ⟨_, h1⟩ := h.after_inAppendCheck b1
  obtain ⟨_, h2⟩ := h1.after_inAppendCheck b2
  obtain ⟨vs, h3⟩ := h2.after_inAppendCheck b3
  rw [show ds ++ [b1, b2, b3] = ds ++ [b1] ++ [b2] ++ [b3] by simp]
  exact ⟨vs, h3.after_writeInMode .accumulating⟩

/-- Continuation packets from an empty buffer. -/
theorem grouping_inPackets (hbuf : s.inBuf = []) {ps : List Packet} (hcb : ∀ q ∈ ps, q.p0 = 0x04) :
    ∃ ws, Grouping s (payload ps) ws (inPackets ps s) := by
  induction ps using List.reverseRecOn with
  | nil => exact ⟨[], .start hbuf⟩
  | append_singleton ps q ih =>
    obtain ⟨hps, hq⟩ := List.forall_mem_append.mp hcb
    obtain ⟨ws, h⟩ := ih hps
    rw [payload_append, inPackets_append, inPackets, inPackets,
      inPacket_continuation (hq q (List.mem_singleton_self q))]
    exact h.after_inSysexCont q.p1 q.p2 q.p3

/-- A terminal packet adds its three bytes and then the zero bytes that fill the last word. -/
theorem Grouping.after_inSysexEnd (h : Grouping s ds ws u) (b1 b2 b3 : Byte) :
    ∃ vs, ∃ k < 4, hostWords (inSysexEnd b1 b2 b3 u).trace = hostWords s.trace ++ vs ∧
      wordBytes vs = ds ++ [b1, b2, b3] ++ List.replicate k 0 := by
  obtain ⟨_, h1⟩ := h.after_inAppendCheck b1
  obtain ⟨ws, h2⟩ := h1.after_inAppendCheck b2
  rw [inSysexEnd, writeInMode_trace]
  generalize inAppendCheck b2 (inAppendCheck b1 u) = v at h2 ⊢
  obtain ⟨vs, hvs, hfill⟩ := hostWords_inFlush (u := inAppend b3 v) h2.words (by simp) (by simpa using h2.short)
  have hbytes : wordBytes ws ++ (inAppend b3 v).inBuf = ds ++ [b1, b2, b3] := by
    rw [inAppend_inBuf, ← List.append_assoc, h2.bytes]
    simp
  rw [hbytes] at hfill
  exact ⟨vs, _, by simp; omega, hvs, hfill⟩

end Stream

/-- Settles O35: the full groups of the stream, and the last one with its zero bytes. -/
theorem streamWordCounts : Obligations.StreamWordCounts := by
  intro ps q s hbuf hps hq
  obtain ⟨ws, h⟩ := grouping_inPackets hbuf hps
  obtain ⟨vs, k, hk, hvs, hfill⟩ := h.after_inSysexEnd q.p1 q.p2 q.p3
  have hrun : inPackets (ps ++ [q]) s = inSysexEnd q.p1 q.p2 q.p3 (inPackets ps s) :=
    (inPackets_append ..).trans (inPacket_terminal hq _)
  have hcount := congrArg List.length hfill
  simp only [length_wordBytes, List.length_append, length_payload, List.length_replicate, List.length_cons,
    List.length_nil] at hcount
  refine ⟨_, vs, runTokens_packets _ s, ?_, ?_, by omega, ?_⟩
  · rw [hrun, inSysexEnd, writeInMode_inBuf, inFlush_inBuf]
  · rw [hrun, hvs]
  · rw [hfill, payload_append, show 4 * vs.length - 3 * (ps.length + 1) = k by omega]
    rfl

end Sys2Proof.Machine

namespace Sys2Proof.Machine

/-! ## The polling loop (R191, R197 to R200) -/

/-- Settles O38: ITERATE tests the run state and then the flag, and else it is its two parts in order. -/
theorem iterateRunsBatchThenChunk : Obligations.IterateRunsBatchThenChunk := by
  intro ws r s
  refine ⟨fun hstop => ?_, fun hrun hreq => ?_,
    exec_iterate_eq_runTokens (mem_batchParts.mpr (.inl rfl)) (mem_readParts.mpr (.inl rfl))⟩
  · simp [exec, execIterate, iterate, hstop]
  · simp [exec, execIterate, iterate, hrun, hreq, stopRun]

/-- Settles O41: SHUTDOWN is the one write of the flag. -/
theorem shutdownSetsTheFlag : Obligations.ShutdownSetsTheFlag := fun _ => rfl

/-! ### What a step takes (R36, R198) -/

/-- With no token left, a step is an idle iteration where the loop runs. -/
theorem step_of_input_nil {s : State} (hi : s.input = []) (hrun : s.runState = .running) :
    step s = exec (.iterate [] ReadResult.timedOut) s := by
  simp only [step, fetch, hi, stepToken]
  exact if_pos (by simp [canTake, hrun])

/-- After `Stopped` a step refuses what it would take, unless that is RESET or SHUTDOWN. -/
theorem step_refused_of_stopped {s : State} (hstop : s.runState = .stopped)
    (htake : ∀ tok rest, s.input = tok :: rest → takenAlways tok = false) : step s = .refused .afterStop := by
  cases hi : s.input with
  | nil => simp [step, fetch, hi, stepToken, canTake, hstop, idleIteration, takenAlways]
  | cons tok rest => simp [step, fetch, hi, stepToken, canTake, hstop, htake tok rest hi]

/-- Settles O3: the first three clauses by the head of the inputs, and the last two because such a token is always
taken. -/
theorem stepWithoutInputOrAfterStop : Obligations.StepWithoutInputOrAfterStop := by
  refine ⟨fun s hi hrun => step_of_input_nil hi hrun, fun s hi hstop => ?_, fun s tok rest hi hstop hreset hshut => ?_,
    fun s rest hi => step_of_input_cons hi (.inr rfl), fun s rest hi => step_of_input_cons hi (.inr rfl)⟩
  · exact step_refused_of_stopped hstop (by simp [hi])
  · have htake : takenAlways tok = false := by simp [← Bool.not_eq_true, takenAlways_iff, hreset, hshut]
    exact step_refused_of_stopped hstop (by simpa [hi] using htake)

/-! ### The stop (R197, R199) -/

/-- An operation leaves a running loop stopped exactly when it is ITERATE and there is a request. -/
theorem exec_stops_iff {i : Instr} {s t : State} (hrun : s.runState = .running) (h : exec i s = .next t) :
    t.runState = .stopped ↔ s.shutdownReq = true ∧ ∃ ws r, i = .iterate ws r := by
  obtain hi | ⟨ws, r, u, rfl, -, hreq, hbatch, hread⟩ | ⟨ws, r, rfl, -, hreq, rfl⟩ | ⟨rfl, rfl⟩ | ⟨rfl, rfl⟩ :=
    exec_next_cases h
  · have hkeep : t.runState = s.runState := congrArg Prod.fst (exec_half_frame hi h).1
    have hne : ¬∃ ws r, i = .iterate ws r := by
      rintro ⟨ws, r, rfl⟩
      simp [Instr.op, isOutbound, isInbound] at hi
    simp [hkeep, hrun, hne]
  · have hloop : t.loopView = s.loopView :=
      (exec_half_frame (.inr rfl) hread).1.trans (exec_half_frame (.inl rfl) hbatch).1
    have hkeep : t.runState = s.runState := congrArg Prod.fst hloop
    simp [hkeep, hrun, hreq]
  · simp [hreq]
  · simp [hrun]
  · simp

/-- Only an iteration's own token decodes to ITERATE. -/
theorem decode_eq_iterate_iff {m : Mode} {tok : Token} {ws : List Word} {r : ReadResult} :
    decode m tok = .iterate ws r ↔ tok = .event (.iter ws r) where
  mp h := Option.some.inj ((encode_decode m tok).symm.trans (congrArg encode h))
  mpr h := h ▸ rfl

/-- Settles O46: the operation that stops the loop, traced back to its token or to the idle iteration. -/
theorem loopStopsOnlyOnShutdown : Obligations.LoopStopsOnlyOnShutdown := by
  intro s t h hrun
  obtain ⟨hi, -, hx⟩ | ⟨tok, rest, hi, -, hx⟩ := step_next_cases h
  · simp [exec_stops_iff hrun hx, hi]
  · rw [exec_stops_iff (s := { s with input := rest }) hrun hx]
    simp [hi, decode_eq_iterate_iff]

/-! ### Failed reads (R200, R211) -/

/-- An empty batch has nothing to write when nothing is queued (R116). -/
theorem outBatch_nil {p : Params} {s : State} (hq : s.outQ = []) : outBatch p [] s = s :=
  if_pos hq

/-- A running iteration with an empty batch and a failed read answers its own state: the read has no packets. -/
theorem exec_iterate_failed {r : ReadResult} {s : State} (hrun : s.runState = .running) (hreq : s.shutdownReq = false)
    (hq : s.outQ = []) (hr : r.status ≠ .success) : exec (.iterate [] r) s = .next s := by
  calc exec (.iterate [] r) s
    _ = runTokens ([.event (.batch [])] ++ []) s :=
      exec_iterate_eq_runTokens (mem_batchParts.mpr (.inl rfl)) (mem_readParts.mpr (.inr (.inl ⟨hr, rfl⟩))) hrun hreq
    _ = .next (outBatch hardware [] s) := runTokens_batchParts (mem_batchParts.mpr (.inl rfl)) s
    _ = .next s := congrArg _ (outBatch_nil hq)

/-- Settles O48, by induction on the reads: each iteration begins in the state that the first one began in. -/
theorem failedReadsChangeNothing : Obligations.FailedReadsChangeNothing := by
  intro rs s hrun hreq hq hrs
  induction rs with
  | nil => rfl
  | cons r rs ih =>
    obtain ⟨hr, hrs⟩ := List.forall_mem_cons.mp hrs
    have hfirst : exec (decode s.outMode (.event (.iter [] r))) s = .next s := exec_iterate_failed hrun hreq hq hr
    rw [List.map_cons, runTokens, hfirst, followedBy_next]
    exact ih hrs

end Sys2Proof.Machine

namespace Sys2Proof.Machine

/-! ## Reset (R240 to R243) -/

/-- Settles O1: the fields of the reset state, one by one. -/
theorem resetLeavesTheEntryState : Obligations.ResetLeavesTheEntryState :=
  ⟨rfl, rfl, rfl, rfl, rfl, rfl, rfl⟩

/-- Settles O42: RESET is the restart, which writes the seven fields of the block alone. -/
theorem resetStartsANewRun : Obligations.ResetStartsANewRun := fun _ => rfl

theorem reset_inv : State.reset.Inv :=
  ⟨Nat.zero_le _, fun _ => rfl, Nat.zero_le _, nofun⟩

theorem reset_framed : State.reset.Framed :=
  ⟨nofun, nofun⟩

theorem reset_queueDrained : State.reset.QueueDrained :=
  ⟨rfl, rfl⟩

/-- Settles O57: the buffers, the queue, the inputs and the effects are empty, and the loop runs. -/
theorem resetMeetsTheInvariants : Obligations.ResetMeetsTheInvariants :=
  ⟨reset_inv, reset_framed, reset_queueDrained⟩

/-! ## A channel message inside an open SysEx (R247) -/

/-- While `Idle`, bytes without an opener are all skipped (R105). -/
theorem outBytes_idle_of_ne {p : Params} {bs : List Byte} {s : State} (hmode : s.outMode = .idle)
    (hbs : ∀ b ∈ bs, b ≠ opener) : outBytes p bs s = s := by
  induction bs with
  | nil => rfl
  | cons b bs ih =>
    obtain ⟨hb, hbs⟩ := List.forall_mem_cons.mp hbs
    rw [outBytes, outByte_idle_of_ne hmode hb]
    exact ih hbs

/-- While `Accumulating`, every word is examined byte by byte, whatever its status (R101, R103). -/
theorem outEvent_accumulating {p : Params} {w : Word} {s : State} (hmode : s.outMode = .accumulating) :
    outEvent p w s = outBytes p (lanes w) s :=
  if_neg (by simp [hmode])

/-- Once a terminator has closed the stream, the bytes after it are skipped if no opener is among them (D4). -/
theorem outBytes_terminator_cons {p : Params} {t : Byte} {bs : List Byte} {s : State}
    (hmode : s.outMode = .accumulating) (ht : isTerminator t = true) (hbs : ∀ b ∈ bs, b ≠ opener) :
    outBytes p (t :: bs) s = byteTerm p t s := by
  rw [outBytes, outByte_accumulating_terminator hmode ht]
  exact outBytes_idle_of_ne (closeOutMode_outMode _) hbs

/-- Settles O25: the status byte is the terminator, and BYTE_TERM frames the buffer with it. -/
theorem channelMessageInsideSysexTerminatesIt : Obligations.ChannelMessageInsideSysexTerminatesIt := by
  intro w s hmode hge hne h1 h2 h3
  have hrest : ∀ b ∈ [lane w 1, lane w 2, lane w 3], b ≠ opener :=
    List.forall_mem_cons.mpr ⟨h1, List.forall_mem_cons.mpr ⟨h2, List.forall_mem_singleton.mpr h3⟩⟩
  obtain ⟨ps, hframed, hterm⟩ := byteTermFramesTheStream (lane w 0) s
  refine ⟨ps, hframed, ?_⟩
  calc exec (decode s.outMode (.word w)) s
    _ = .next (outEvent hardware w s) := exec_decodeWord w s
    _ = .next (outBytes hardware (lanes w) s) := congrArg _ (outEvent_accumulating hmode)
    _ = exec (.byteTerm (lane w 0)) s :=
      congrArg _ (outBytes_terminator_cons hmode (isTerminator_of_ge hge hne) hrest)
    _ = .next { s with outMode := .idle, outBuf := [], outQ := s.outQ ++ ps } := hterm

end Sys2Proof.Machine

namespace Sys2Proof.Machine

/-! ## One SysEx stream sent out (R86, R100, R103 to R110)

The words of a stream start in `Idle` with the opener, so from the state that the opener leaves they are examined byte
by byte, up to the terminator; the zero bytes after it in its own word are skipped (D4). -/

section Send

variable {s : State} {ds : List Byte} {t : Byte}

/-- With one write per batch, BYTE_DATA has no effect outside the block, and it never writes the mode (R107, R112). -/
theorem byteData_hardware_frame (b : Byte) (s : State) :
    (byteData hardware b s).outMode = s.outMode ∧ (byteData hardware b s).trace = s.trace := by
  obtain ⟨-, e⟩ | ⟨-, e⟩ := byteData_spec hardware b s
  · exact e ▸ ⟨rfl, rfl⟩
  · exact e ▸ ⟨rfl, rfl⟩

/-- Data bytes leave the stream open and make no write call. -/
theorem outBytes_data_frame (hmode : s.outMode = .accumulating) (hds : ∀ b ∈ ds, isTerminator b = false) :
    (outBytes hardware ds s).outMode = .accumulating ∧ (outBytes hardware ds s).trace = s.trace := by
  induction ds generalizing s with
  | nil => exact ⟨hmode, rfl⟩
  | cons b ds ih =>
    obtain ⟨hb, hds⟩ := List.forall_mem_cons.mp hds
    obtain ⟨hkeep, hquiet⟩ := byteData_hardware_frame b s
    rw [outBytes, outByte_accumulating_data hmode hb, ← hquiet]
    exact ih (hkeep.trans hmode) hds

/-- A word with the terminator in it, and none but zero bytes after that, ends the stream. -/
theorem outEvent_terminator {w : Word} {k : Nat} (hmode : s.outMode = .accumulating)
    (hds : ∀ b ∈ ds, isTerminator b = false) (ht : isTerminator t = true)
    (hw : lanes w = ds ++ t :: List.replicate k 0) :
    outEvent hardware w s = byteTerm hardware t (outBytes hardware ds s) := by
  have hfill : ∀ b ∈ List.replicate k (0 : Byte), b ≠ opener := fun b hb => by
    rw [List.eq_of_mem_replicate hb]
    decide
  rw [outEvent_accumulating hmode, hw, outBytes_append]
  exact outBytes_terminator_cons (outBytes_data_frame hmode hds).1 ht hfill

/-- In an open stream the words of its remaining bytes are those bytes one after another, four at a time. -/
theorem outEvents_sysexWords (hmode : s.outMode = .accumulating) (hds : ∀ b ∈ ds, isTerminator b = false)
    (ht : isTerminator t = true) :
    outEvents hardware (sysexWords (ds ++ [t])) s = byteTerm hardware t (outBytes hardware ds s) := by
  induction ds using sysexWords.induct generalizing s with
  | case1 => exact outEvent_terminator (k := 3) hmode hds ht (lanes_packWord ..)
  | case2 a => exact outEvent_terminator (k := 2) hmode hds ht (lanes_packWord ..)
  | case3 a b => exact outEvent_terminator (k := 1) hmode hds ht (lanes_packWord ..)
  | case4 a b c => exact outEvent_terminator (k := 0) hmode hds ht (lanes_packWord ..)
  | case5 a b c d rest ih =>
    obtain ⟨hword, hrest⟩ := List.forall_mem_append (l₁ := [a, b, c, d]).mp hds
    change outEvents hardware (sysexWords (rest ++ [t])) (outEvent hardware (packWord a b c d) s) = _
    rw [outEvent_accumulating hmode, lanes_packWord]
    exact ih (outBytes_data_frame hmode hword).1 hrest

theorem sysexWords_cons (b : Byte) (bs : List Byte) : ∃ w ws, sysexWords (b :: bs) = w :: ws ∧ lane w 0 = b := by
  match bs with
  | [] | [_] | [_, _] | _ :: _ :: _ :: _ => exact ⟨_, _, rfl, lane_packWord_zero ..⟩

/-- A word that starts with the opener is examined in `Idle` as in a stream just opened (R106, D2). -/
theorem outEvent_opener {w : Word} (hmode : s.outMode = .idle) (hw : lane w 0 = opener) :
    outEvent hardware w s = outEvent hardware w (openOutMode s) := by
  have hopen : outByte hardware opener s = outByte hardware opener (openOutMode s) := outByte_idle_opener hmode
  rw [outEvent_accumulating (s := openOutMode s) rfl, outEvent, if_neg (by simp [hw]), outSysexWord, lanes, hw]
  exact congrArg (outBytes hardware [lane w 1, lane w 2, lane w 3]) hopen

/-- The words of a whole stream. -/
theorem outEvents_stream (hmode : s.outMode = .idle) (hds : ∀ b ∈ ds, isTerminator b = false)
    (ht : isTerminator t = true) :
    outEvents hardware (sysexWords (opener :: ds ++ [t])) s =
      byteTerm hardware t (outBytes hardware (opener :: ds) (openOutMode s)) := by
  have hstream : ∀ b ∈ opener :: ds, isTerminator b = false := List.forall_mem_cons.mpr ⟨rfl, hds⟩
  rw [← outEvents_sysexWords rfl hstream ht]
  obtain ⟨w, ws, hws, hw⟩ := sysexWords_cons opener (ds ++ [t])
  rw [List.cons_append, hws, outEvents, outEvents, outEvent_opener hmode hw]

end Send

/-! ## The packets of one SysEx stream, from their sender to their receiver (R83, R111, R166) -/

/-- The packets `ps` and then `q` are one SysEx stream of the bytes `bs`: continuations, one terminal packet, and zero
bytes only after the stream. -/
structure SysexPackets (ps : List Packet) (q : Packet) (bs : List Byte) : Prop where
  continuation : ∀ pkt ∈ ps, pkt.p0 = 0x04
  terminal : q.p0 = 0x05 ∨ q.p0 = 0x06 ∨ q.p0 = 0x07
  bytes : ∃ k, payload (ps ++ [q]) = bs ++ List.replicate k 0

/-- The last packet of a terminal flush has CIN 5, 6 or 7 (R111). -/
theorem terminalPacket_last_is_terminal {buf : List Byte} (h : buf ≠ []) :
    (terminalPacket buf ((buf.length - 1) / 3)).p0 = 0x05 ∨ (terminalPacket buf ((buf.length - 1) / 3)).p0 = 0x06 ∨
      (terminalPacket buf ((buf.length - 1) / 3)).p0 = 0x07 := by
  rw [terminalPacket_cin_last h]
  have hlt : (buf.length - 1) % 3 < 3 := Nat.mod_lt _ (by decide)
  generalize (buf.length - 1) % 3 = r at hlt ⊢
  interval_cases r <;> decide

/-- The forced flushes of a stream and the flush of its terminator send one stream's packets. -/
theorem Streaming.sysexPackets {s u : State} {ds : List Byte} {ps : List Packet} (h : Streaming s ds ps u) (t : Byte) :
    ∃ qs q, ps ++ terminalPackets (u.outBuf ++ [t]) = qs ++ [q] ∧ SysexPackets qs q (ds ++ [t]) := by
  have hne : u.outBuf ++ [t] ≠ [] := by simp
  have hsplit := congrArg (ps ++ ·) (terminalPackets_eq_append hne)
  simp only [← List.append_assoc] at hsplit
  refine ⟨_, _, hsplit, ?_, terminalPacket_last_is_terminal hne, ?_⟩
  · exact List.forall_mem_append.mpr ⟨h.cin, List.forall_mem_map.mpr fun g hg =>
      terminalPacket_cin_of_lt (List.mem_range.mp hg)⟩
  · rw [← hsplit, payload_append, payload_terminalPackets, ← List.append_assoc, ← List.append_assoc, h.bytes]
    exact ⟨_, rfl⟩

/-- The words of a stream queue its packets and close it again, before any write call. -/
theorem outEvents_stream_queues {s : State} {ds : List Byte} {t : Byte} (hmode : s.outMode = .idle)
    (hbuf : s.outBuf = []) (hds : ∀ b ∈ ds, isTerminator b = false) (ht : isTerminator t = true) :
    ∃ (u : State) (ps : List Packet) (q : Packet), SysexPackets ps q (opener :: ds ++ [t]) ∧ u.trace = s.trace ∧
      outEvents hardware (sysexWords (opener :: ds ++ [t])) s =
        { u with outMode := .idle, outBuf := [], outQ := s.outQ ++ (ps ++ [q]) } := by
  have hstream : ∀ b ∈ opener :: ds, isTerminator b = false := List.forall_mem_cons.mpr ⟨rfl, hds⟩
  obtain ⟨ps, h⟩ := streaming_outBytes (s := openOutMode s) rfl hbuf hstream
  obtain ⟨qs, q, hsent, hpackets⟩ := h.sysexPackets t
  refine ⟨_, qs, q, hpackets, (outBytes_data_frame (s := openOutMode s) rfl hstream).2, ?_⟩
  rw [outEvents_stream hmode hds ht, ← outByte_accumulating_terminator h.outMode ht, h.outByte_terminator ht, hsent]
  rfl

/-- A stream sent as one batch from the outbound half of reset goes out in one call with its packets. -/
theorem exec_outBatch_stream {s : State} {ds : List Byte} {t : Byte}
    (hview : s.outboundView = State.reset.outboundView) (hds : ∀ b ∈ ds, isTerminator b = false)
    (ht : isTerminator t = true) : ∃ u ps q, SysexPackets ps q (opener :: ds ++ [t]) ∧
      exec (.outBatch (sysexWords (opener :: ds ++ [t]))) s = .next u ∧
      writeCalls u.trace = writeCalls s.trace ++ [packetBytes (ps ++ [q])] ∧
      u.outboundView = State.reset.outboundView := by
  obtain ⟨hmode, hbuf, hqueue⟩ : s.outMode = .idle ∧ s.outBuf = [] ∧ s.outQ = [] := by
    simpa [State.reset] using hview
  obtain ⟨u, ps, q, hpackets, hquiet, hevents⟩ := outEvents_stream_queues hmode hbuf hds ht
  rw [hqueue, List.nil_append] at hevents
  obtain ⟨r, hwrite⟩ := writeQueue_of_ne_nil (s := { u with outMode := .idle, outBuf := [], outQ := ps ++ [q] })
    (by simp)
  refine ⟨_, ps, q, hpackets, congrArg Host.Outcome.next ((congrArg writeQueue hevents).trans hwrite), ?_, rfl⟩
  rw [writeCalls_append, hquiet]
  rfl

/-- The packets of a stream given to the inbound half of reset emit its bytes and leave that half as it was. -/
theorem SysexPackets.received {ps : List Packet} {q : Packet} {bs : List Byte} (h : SysexPackets ps q bs) {s : State}
    (hview : s.inboundView = State.reset.inboundView) : ∃ v ws k,
      runTokens ((ps ++ [q]).map Token.packet) s = .next v ∧ v.inboundView = State.reset.inboundView ∧
      hostWords v.trace = hostWords s.trace ++ ws ∧ wordBytes ws = bs ++ List.replicate k 0 := by
  have hbuf : s.inBuf = [] := congrArg Prod.snd hview
  obtain ⟨v, ws, hrun, hempty, hwords, -, hbytes⟩ := streamWordCounts ps q s hbuf h.continuation h.terminal
  have hv : v = inSysexEnd q.p1 q.p2 q.p3 (inPackets ps s) := by
    have heq := Host.Outcome.next.inj (hrun.symm.trans (runTokens_packets _ s))
    rw [heq, inPackets_append]
    exact inPacket_terminal h.terminal _
  have hidle : v.inMode = .idle := congrArg State.inMode hv
  obtain ⟨k, hpayload⟩ := h.bytes
  rw [hpayload, List.append_assoc, List.replicate_append_replicate] at hbytes
  exact ⟨v, ws, _, hrun, Prod.ext hidle hempty, hwords, hbytes⟩

/-- Settles O36: the one call carries the packets of one stream, and whatever state receives them emits its bytes. -/
theorem sysexRoundTrip : Obligations.SysexRoundTrip := by
  intro ds t s s' hds hge hne hout hin
  obtain ⟨u, ps, q, hpackets, hexec, hcalls, hafter⟩ := exec_outBatch_stream hout
    (fun b hb => not_isTerminator_of_data (.inl (hds b hb))) (isTerminator_of_ge hge hne)
  obtain ⟨v, ws, k, hrun, hback, hwords, hbytes⟩ := hpackets.received hin
  exact ⟨u, ps ++ [q], v, ws, k, hexec, hcalls, hafter, hrun, hback, hwords, hbytes⟩

end Sys2Proof.Machine
